-- ==== Sys2Proof/Word.lean ====
section
/-! DEFINITION. The word types of the LZ-4816 and the plain names shared by its commands and its state. -/

namespace Sys2Proof

/-- A lane word (R182). -/
abbrev W36 := BitVec 36
/-- A double word, DWORD72 or TIME72 (R182). -/
abbrev W72 := BitVec 72
/-- A Headframe word or an I/O port (R32). -/
abbrev W16 := BitVec 16
abbrev W32 := BitVec 32
abbrev Byte := BitVec 8
/-- A retired-instruction count (R274). -/
abbrev W48 := BitVec 48

/-- One of the two lanes (R111). -/
inductive LaneId where
  | a
  | b
  deriving DecidableEq, Repr

/-- A task number, T0 the highest priority (R122). -/
abbrev Task := Fin 16
/-- A general register X0-X15 or W0-W15 (R183, R358). -/
abbrev Reg := Fin 16
/-- A segment selector S0-S7 (R183). -/
abbrev Sel := Fin 8
/-- A field channel F00-F31 (R374). -/
abbrev Chan := Fin 32
/-- A message bus controller MB0-MB3 (R396). -/
abbrev Bus := Fin 4
/-- A working island in the order of R57. -/
abbrev Island := Fin 10
/-- A tram channel (R248). -/
abbrev TramCh := Fin 16
/-- A monitor point M00-M31 (R481). -/
abbrev Point := Fin 32
/-- An ingress or egress block (R63). -/
abbrev Block := Fin 512

/-- The condition field of a lane instruction (R187); EXT is never a condition under generation 1 (R189). -/
inductive Cond where
  | al | rs | rc | eq | ne | lt | ge | gt | le | lo | hs | vs | vc | fc | fw
  deriving DecidableEq, Repr

/-- The condition field of a Headframe instruction (R360); RS, RC and EXT raise ILLEGAL. -/
inductive HCond where
  | al | eq | ne | lt | ge | gt | le | lo | hs | vs | vc | fc | fw
  deriving DecidableEq, Repr

/-- The agent a debug frame addresses (R572, TARGET). -/
inductive DbgTarget where
  | laneA
  | laneB
  | headframe
  deriving DecidableEq, Repr

/-- The two directions of the die-to-die link (R21). -/
inductive D2dDir where
  | toField
  | toLogic
  deriving DecidableEq, Repr

/-- The kind of an image and of its slots (R538, R540). -/
inductive ImageKind where
  | firmware
  | charter
  | program
  deriving DecidableEq, Repr

/-- A channel on which Obtum is served (R438). -/
inductive ObtChan where
  | mailbox (m : Fin 8)
  | bus (b : Bus)
  deriving DecidableEq, Repr

/-- A role of the part (R319). -/
inductive Role where
  | negotiate | alone | active | standby | handOut | handIn | wait | faulted
  deriving DecidableEq, Repr

/-- A state of all output stages (R333). -/
inductive Stage where
  | safe | drive | released
  deriving DecidableEq, Repr

/-- The other lane. -/
def LaneId.other : LaneId → LaneId
  | .a => .b
  | .b => .a

/-- The code of a role in PAIR.STAT.ROLE (R319). -/
def Role.code : Role → Nat
  | .negotiate => 0 | .alone => 1 | .active => 2 | .standby => 3
  | .handOut => 4 | .handIn => 5 | .wait => 6 | .faulted => 7

/-- The role a code names (R319). -/
def Role.ofCode : Nat → Option Role
  | 0 => some .negotiate | 1 => some .alone | 2 => some .active | 3 => some .standby
  | 4 => some .handOut | 5 => some .handIn | 6 => some .wait | 7 => some .faulted
  | _ => none

/-- The code of a stage (R332, R392, R395). -/
def Stage.code : Stage → Nat
  | .safe => 0 | .drive => 1 | .released => 2

def Stage.ofCode : Nat → Stage
  | 1 => .drive
  | 2 => .released
  | _ => .safe

/-- The code of an image kind (R440, R533). -/
def ImageKind.code : ImageKind → Nat
  | .firmware => 0 | .charter => 1 | .program => 2

def ImageKind.ofCode : Nat → Option ImageKind
  | 0 => some .firmware | 1 => some .charter | 2 => some .program
  | _ => none

/-! ### The balls of the boundary chain -/

/-- The balls that have cells (R567): the host port and the flash ports are numbered 0, 1 and 2. -/
inductive Ball where
  | clock (port : Fin 3)
  | select (port : Fin 3)
  | strobe (port : Fin 3)
  | io (port : Fin 3) (line : Fin 8)
  | hostInt
  | txd (bus : Fin 4)
  | rxd (bus : Fin 4)
  | nReset
  | pwron
  | testEn
  | refclk
  deriving DecidableEq, Repr

/-- TEST_EN and REFCLK are observe-only (R567). -/
def Ball.observeOnly : Ball → Bool
  | .testEn => true
  | .refclk => true
  | _ => false

end Sys2Proof
end

