-- ==== Sys2Proof/Syntax.lean ====
section
/-! DEFINITION. The commands of the block: one constructor of `Instr` for each row of spec/opcode_table.json, and the records
that are their operands. The table gives its rows no operands and no bits; the operands here are what the rule of each row
says reaches the part from outside (a frame's fields, a measured value, the fields of an instruction word). -/

namespace Sys2Proof

/-! ### Operands of lane and Headframe instructions -/

/-- The offset of a memory word operand: DISP18, or an index register and DISP14 (R211). -/
inductive MemOff where
  | disp (d : BitVec 18)
  | idx (xi : Reg) (d : BitVec 14)
  deriving DecidableEq, Repr

/-- The amount of a shift: XB[6:0] for SHIFT, AUX[12:6] for SHIFTI (R217). -/
inductive ShAmt where
  | reg (xb : Reg)
  | imm (s : BitVec 7)
  deriving DecidableEq, Repr

/-! ### Flash devices and the surroundings of a start -/

/-- A slot header of R533. -/
structure SlotHeader where
  magic : W32
  kind : Byte
  slot : Byte
  gen : W32
  length : W32
  tag : List Byte
  wrap : List Byte
  hcrc : W32
  bcrc : List W32
  deriving DecidableEq, Repr

/-- One image slot of a flash device: its header once written, and its stored 4 KiB blocks of ciphertext (R532, R533). -/
structure FlashSlot where
  hdr : Option SlotHeader
  blocks : List (List Byte)
  deriving DecidableEq, Repr

/-- One kind entry of a directory record (R538). -/
structure DirEntry where
  active : Byte
  stateA : Byte
  stateB : Byte
  genA : W32
  genB : W32
  hashA : List Byte
  hashB : List Byte
  deriving DecidableEq, Repr

/-- A directory record (R538), as it stands in a page; a torn page has a CRC that does not hold. -/
structure DirRecord where
  magic : W32
  dseq : W32
  firmware : DirEntry
  charter : DirEntry
  program : DirEntry
  crc : W32
  deriving DecidableEq, Repr

/-- The devices on flash ports 0 and 1 and what they hold (R531, R532). -/
structure Flash where
  /-- Size in MiB of the device found on each port; none where it is missing or fails discovery. -/
  p0 : Option Nat
  p1 : Option Nat
  dir0 : Option DirRecord
  dir1 : Option DirRecord
  fwA : FlashSlot
  fwB : FlashSlot
  chA : FlashSlot
  chB : FlashSlot
  prA : FlashSlot
  prB : FlashSlot
  deriving DecidableEq, Repr

/-- An uncorrectable array fault found by BIST (R94 step 3, R614). -/
inductive BistFault where
  | pillar
  | other
  deriving DecidableEq, Repr

/-- What a start meets outside the logic of the part: the devices on the flash ports, physical check results, and the
content of the firmware body, whose format is the vendor's own (R534).
DESIGN CHOICE, log entry 75. -/
structure StartEnv where
  /-- TEST_EN at step 1 (R573). -/
  testEn : Bool
  /-- What the fuse read returned is damaged (R612). -/
  fuseDamaged : Bool
  bist : Option BistFault
  /-- First failing pattern of the injection test, 0 if all pass (R298). -/
  injection : Byte
  /-- What the flash devices hold where they were changed from outside while the part was reset; none where they hold what the part
  left in them (R109). -/
  flash : Option Flash
  /-- The second pass over the charter read other bytes (R81, R84 step 15). -/
  rereadDiffers : Bool
  /-- The reload of step 9 streamed other bytes than were verified (R100). -/
  reloadDiffers : Bool
  /-- The field controller, its memories or oscillator failed the self-test (R394). -/
  fieldCtlBad : Bool
  /-- What each channel's input stage reads, in mV, with the references at its ON and OFF thresholds injected (R394). -/
  fieldRefs : List (Nat × Nat)
  /-- Each channel's land voltage in mV at the end of its self-test pulse (R394). -/
  fieldPulses : List Nat
  /-- The instruction RAM the firmware image holds: address and instruction (R357). -/
  imem : List (Nat × W32)
  /-- The charter latch passes its parity checks (R83). -/
  latchParity : Bool
  /-- Duration from the start's reference instant to task start, in units of 10 µs (R110, TSTART). -/
  tstart : W16
  deriving DecidableEq, Repr

/-- A rail whose rise through its power-on threshold is a power-on (R87, R581). -/
inductive PowerRail where
  | vddCore | vddLin | vhold
  deriving DecidableEq, Repr

/-- A rail whose fall below its brown-out threshold is a brown-out (R87, R581). -/
inductive BrownRail where
  | vddCore | vddLin
  deriving DecidableEq, Repr

/-- The reason for a PLL that counts as out of lock (R447). -/
inductive PllLoss where
  | lockDetector
  | supply
  deriving DecidableEq, Repr

/-- What WATCHDOG_CLOCK_STOP finds (R314, R316): the counting clock's edges end, or a clock has shown no edge for 8 cycles of the other.
DESIGN CHOICE, log entry 38. -/
inductive WdtSilence where
  | countingEnds
  | counting
  | watching
  deriving DecidableEq, Repr

/-- The requester of an access through an access seam (R464, R466). -/
inductive SeamRequester where
  | headframe (addr : W16)
  | tram (ch : TramCh)
  | host
  | lane (l : LaneId)
  deriving DecidableEq, Repr

/-- Where the destination stood when cancel was raised (R465). -/
inductive CancelPoint where
  | notLatched
  | latchedEarlier
  | sameClock
  deriving DecidableEq, Repr

/-- What the circuits of the assay and the gate did beside their function (R285, R287, R289): a comparator held at a verdict
by a fault, and the result of the gate proof. -/
structure AssayHw where
  forceA : Option Bool
  forceB : Option Bool
  gateProof : Bool
  deriving DecidableEq, Repr

/-! ### Frames of the pair link, the claim wire, the die-to-die link and the buses -/

/-- HELLO payload (R324, R336). -/
structure HelloFrame where
  pairId : W32
  unit : Byte
  role : Byte
  generation : W16
  lastClaim : W32
  high : W32
  echo : W32
  turn : W32
  pairHash : List Byte
  progHash : List Byte
  deriving DecidableEq, Repr

/-- HEARTBEAT payload (R324, R326). -/
structure HeartbeatFrame where
  claim : W32
  role : Byte
  mirror : Byte
  fault : Bool
  recovery : Bool
  mirrored : Bool
  cwOk : Bool
  utime : W72
  dseq : W32
  high : W32
  deriving DecidableEq, Repr

/-- The commit trailer of a delta, and a task record of the hand token (R340, R348). -/
structure Trailer where
  task : Byte
  overrun : Bool
  stopped : Bool
  consecutive : Byte
  cycle : W32
  close : W72
  next : W72
  records : W32
  deriving DecidableEq, Repr

/-- The hand token (R348). -/
structure HandToken where
  utime : W72
  high : W32
  dseq : W32
  /-- FLAGS of the head; zero in the state block that ends a resync (R344). -/
  tasks : List Trailer
  seqs : List W16
  deriving DecidableEq, Repr

/-- Why a received Tchias frame was discarded (R325). -/
inductive TchiasDiscard where
  | codeGroup | crc | length | type
  deriving DecidableEq, Repr

/-- Why a received die-to-die frame was discarded (R23). -/
inductive D2dDiscard where
  | crc | repeated
  deriving DecidableEq, Repr

/-- The payload that COMMAND and HEARTBEAT frames share, with their FLAGS (R391).
DESIGN CHOICE, log entry 97. -/
structure CommandFrame where
  claim : W32
  out : W32
  stamp : W32
  safeReq : Bool
  release : Bool
  deriving DecidableEq, Repr

/-- STATUS payload (R392).
DESIGN CHOICE, log entry 97. -/
structure StatusPayload where
  inp : W32
  diag : W32
  rb : W32
  stage : BitVec 2
  silent : Bool
  cwValid : Bool
  latched : Bool
  vfLow : Bool
  temp : Byte
  vfield : W16
  partnerClaim : W32
  ackSeq : W16
  discarded : W16
  deriving DecidableEq, Repr

/-- One FIELD record (R65), also carried by a CONFIG frame (R391). -/
structure FieldRec where
  mode : BitVec 2
  on : Byte
  off : Byte
  filter : Byte
  wireBreak : Bool
  safeOn : Bool
  pullTest : Bool
  pulse : Byte
  word : Nat
  bitix : Nat
  deriving DecidableEq, Repr

/-- One structure frame (R76). -/
structure FrameRec where
  xbar : Nat
  entry : Nat
  stage : Nat
  en : Bool
  words : Nat
  bitix : Nat
  word : Nat
  deriving DecidableEq, Repr

/-- What a CONFIG frame carries (R391): the FIELD records with LOGIC_SILENCE and the XBAR 1 structure frames, or the expert settings. -/
inductive FieldConfig where
  | records (recs : List FieldRec) (logicSilenceMs : Byte) (frames : List FrameRec)
  | expert (pulsePer : BitVec 7) (openMa : BitVec 6)
  deriving DecidableEq, Repr

/-- A frame from the logic die to the field die by its TYPE (R391); LOAD carries a part of the field firmware. -/
inductive LogicFrame where
  | command (f : CommandFrame)
  | heartbeat (f : CommandFrame)
  | reset
  | load (payload : List Byte)
  | config (c : FieldConfig)
  deriving DecidableEq, Repr

/-- A CAN frame on a bus (R396, R404).
DESIGN CHOICE, log entry 97. -/
structure CanFrame where
  id : BitVec 29
  ide : Bool
  fdf : Bool
  brs : Bool
  esi : Bool
  rtr : Bool
  dlc : BitVec 4
  data : List Byte
  deriving DecidableEq, Repr

/-- When a received frame arrived: the bus time at its SOF, and the filter words that have been written since its arbitration field
ended, as they stood then (R409, R412).
DESIGN CHOICE, log entry 68. -/
structure Arrival where
  sof : W32
  was : List (Fin 512 × W16)
  deriving DecidableEq, Repr

/-- What the field die measures on its 32 channels every 10 µs: the voltage of each land in mV and the load current in mA (R376, R395). -/
structure FieldSample where
  mv : List Nat
  ma : List W16
  deriving DecidableEq, Repr

/-- What the field die measures every 1 ms: VFIELD in mV and its own temperature (R380, R392). -/
structure SupplySample where
  mv : Nat
  temp : Byte
  deriving DecidableEq, Repr

/-- A protocol error of ISO 11898-1 as MBn.ERRCODE names it (R419). -/
inductive CanErrKind where
  | stuff | form | ack | bit1 | bit0 | crc
  deriving DecidableEq, Repr

/-- A detected protocol error: its kind, phase, and the side on which the controller stood (R415).
PRESUMED, log entry 66. -/
structure CanError where
  kind : CanErrKind
  dataPhase : Bool
  transmitting : Bool
  /-- The receiver saw a dominant bit first after its error flag: the counter rises by 8 (ISO 11898-1). -/
  dominantAfterFlag : Bool
  /-- Acknowledgement error of an error-passive transmitter that saw no dominant bit in its passive flag (R417). -/
  passiveNoDominant : Bool
  /-- A stuff error during arbitration whose stuff bit was sent recessive and read dominant (ISO 11898-1). -/
  arbitrationStuff : Bool
  /-- A bit error in the controller's own active error flag or overload flag (ISO 11898-1). -/
  inFlag : Bool
  /-- Times the counter rises again for dominant bits that go on after a flag, at the 14th (8th after a passive flag) and after each
  8 more (ISO 11898-1). -/
  moreDominant : Nat
  /-- The loop delay measured before the error, where the frame is an FD frame with BRS of the controller's own (R402). -/
  delay : Option Byte
  deriving DecidableEq, Repr

/-- An uncorrectable or corrected word found by a scrub pass (R491, R550).
DESIGN CHOICE, log entry 98. -/
structure ScrubFind where
  address : Nat
  uncorrectable : Bool
  deriving DecidableEq, Repr

/-- An upset that strikes a lane's storage behind a scrub pass and is met at its next use (R245, R268, R553).
DESIGN CHOICE, log entry 98. -/
inductive Upset where
  /-- One bit of a word of lane memory or of the image copy. -/
  | bit (address : Nat)
  /-- Two bits of a word. -/
  | word (address : Nat)
  /-- An entry of the descriptor table. -/
  | descriptor (index : Nat)
  /-- An entry of the journal, of the vein table, or of a task's instances. -/
  | journal (index : Nat)
  | vein (index : Nat)
  | inst (t : Task) (index : Nat)
  deriving DecidableEq, Repr

/-- One pass of the pillar's scrubber: what it finds, and the byte addresses at which a single bit is upset behind it (R491).
DESIGN CHOICE, log entry 98. -/
structure PillarPass where
  finds : List ScrubFind
  upsets : List Nat
  deriving DecidableEq, Repr

/-- One pass of a lane's scrubber: what it finds, and the upsets that strike behind it (R550).
DESIGN CHOICE, log entry 98. -/
structure ScrubPass where
  finds : List ScrubFind
  upsets : List Upset
  deriving DecidableEq, Repr

/-! ### The commands -/

/-- One constructor per row of spec/opcode_table.json, in the table's order. -/
inductive Instr where
  -- resets and starts (R87-R110)
  | powerOn (rail : PowerRail)
  | brownOut (rail : BrownRail)
  | externalReset (lowNs : Nat)
  | pllLossOfLock (why : PllLoss)
  | sysRstWarm (p : Bool)
  | sysRstCold (p : Bool)
  | resetRollback
  | resetRelease
  | coldStart (env : StartEnv)
  | warmStart (env : StartEnv)
  | startWatchdogExpiry
  -- clocks, gates and seams (R445-R471)
  | judgingWindow (count : Nat)
  | judgingTimeout
  | forcedSwitch
  | pllLock
  | rampStep (i : Island)
  | referenceWatchWindow (count : BitVec 12)
  | clkDivSet (i : Island) (value : W16) (p : Bool)
  | gateClose (i : Island)
  | gateOpen (i : Island)
  | seamStuckTimeout (req : SeamRequester) (target : BitVec 4) (at_ : CancelPoint)
  | pulseSeamEvent (i : Fin 16) (returned : Nat)
  | seamPstatClear (p : Bool)
  | portWrite (addr : W16) (value : W16) (p : Bool)
  -- tasks, cycles and commits (R111-R149)
  | tick
  | cycleStart (t : Task)
  | snapshotInstant (t : Task)
  | overrun (t : Task)
  | commit (t : Task)
  | laneBDelivery
  | laneBCommit (t : Task)
  | preEmption (l : LaneId)
  | contextRestore (l : LaneId)
  | ingressApplication (b : Block)
  | freshnessExpiry (b : Block)
  | editApplication
  -- replay (R150-R181)
  | replayInstance (l : LaneId)
  | forwardPassResume (l : LaneId)
  | provisionalExceptionTaken (l : LaneId)
  | fullReexecution (l : LaneId)
  | journalRecordRetire (l : LaneId)
  -- the assay (R272-R300)
  | assayVerdict (hw : AssayHw)
  | catchupLimitExpiry
  | assayRollback
  | standbyInjectionTest (firstFail : Byte)
  -- trams (R248-R271)
  | tramElement
  | trmGo (ch : TramCh) (p : Bool)
  | trmResume (ch : TramCh) (p : Bool)
  | trmAbort (ch : TramCh) (p : Bool)
  -- the system watchdog (R311-R318)
  | wdtKeyLand (key : W16) (elapsed : Nat)
  | watchdogExpiry
  | watchdogClockStop (silence : WdtSilence)
  | watchdogPrewarning
  -- the pair (R319-R355)
  | heartbeatTimer
  | heartbeatMissed
  | helloTimer
  | pairWaitExpiry
  | tchiasFrameSend
  | hello (seq : W32) (f : HelloFrame) (roundTripNs : Nat)
  | heartbeat (seq : W32) (f : HeartbeatFrame)
  | delta (seq : W32) (last : Bool) (recs : List (Nat × W36)) (trailer : Option Trailer)
  | resync (seq : W32) (start : W32) (recs : List W36)
  | resyncFrameSend
  | lag (seq : W32) (first : W32)
  | hand (seq : W32) (tok : HandToken)
  | confirm (seq : W32) (claim : W32) (dseq : W32)
  | abort (seq : W32) (reason : Byte)
  | fault (seq : W32) (cls : Byte) (task : Byte) (code : W16)
  | resetReq (seq : W32) (key : W16)
  | swapReq (seq : W32) (origin : Byte)
  | claimTake
  | swapTimer
  | swapRetryTimer
  | handSend
  | confirmTimeout
  | pairCmdSwap (p : Bool)
  | pairCmdPartnerReset (p : Bool)
  | claimWireFrameSend
  | claimWireFrame (bits : BitVec 48)
  | claimWireLoss
  | claimWireLongLoss
  | claimWireLongValid
  -- the die-to-die link and the field die (R21-R23, R374-R395)
  | d2dHeartbeatTimer
  | d2dFrameSend
  | fieldCommandFrame (seq : W16) (f : CommandFrame)
  | fieldHeartbeatFrame (seq : W16) (f : CommandFrame)
  | fieldResetFrame (seq : W16)
  | fieldLoadFrame (seq : W16) (last : Bool) (hashOk : Bool)
  | fieldConfigFrame (seq : W16) (cfg : FieldConfig)
  | statusFrameSend
  | statusFrame (seq : W16) (f : StatusPayload)
  | fieldStatusTimeout
  | logicSilenceExpiry
  | inputSample (x : FieldSample)
  | vfieldSample (x : SupplySample)
  | readbackMismatch (ch : Chan) (mv : Nat)
  | testPulseSlot (ch : Chan)
  | testPulseEnd (ch : Chan) (mv : Nat)
  | pullTestStart (ch : Chan)
  | pullTestEnd (ch : Chan) (mv : Nat)
  | thermalShutdown (ch : Chan) (ma : W16)
  | thermalRestart (ch : Chan)
  | overload (ch : Chan) (ma : W16)
  | openOn (ch : Chan) (ma : W16)
  | fldRelease (p : Bool)
  | fldLatchRelease (hi : Bool) (mask : W16) (p : Bool)
  -- message buses (R396-R420)
  | arbitrationStart (n : Bus)
  | canFrameSent (n : Bus) (delay : Byte)
  | canFrameReceived (n : Bus) (f : CanFrame) (x : Arrival)
  | canError (n : Bus) (e : CanError)
  | protocolException (n : Bus)
  | busIntegrationEnd (n : Bus)
  | busOffRecovery (n : Bus)
  | lifetimeExpiry (n : Bus) (m : Fin 64)
  | ardDwellExpiry (n : Bus)
  | mbTxset (n : Bus) (q : Fin 4) (mask : W16) (p : Bool)
  | mbTxabort (n : Bus) (q : Fin 4) (mask : W16) (p : Bool)
  | mbRxfPop (n : Bus) (p : Bool)
  | goActive (n : Bus) (p : Bool)
  | mbRelease (n : Bus) (p : Bool)
  | mbTimingWrite (n : Bus) (value : W16) (p : Bool)
  | mbErrcodeRead (n : Bus) (p : Bool)
  | mbTimeLoRead (n : Bus) (p : Bool)
  -- ingress, egress and the host port (R421-R444)
  | ingressSetTimeout (b : Block)
  | egressMailboxLoad (n : Bus)
  | hostRead (addr : W32) (len : Nat)
  | hostWrite (addr : W32) (data : List Byte)
  | hostReadStatus
  | xspiUnsupportedCommand (cmd : Byte)
  | hostBell (mask : Byte)
  | hostFin (mask : Byte) (p : Bool)
  -- Obtum (R438-R442): the channel, the tag and the body bytes of the request
  | obtumUnknown (ch : ObtChan) (tag : W32) (cmd : W16)
  | identify (ch : ObtChan) (tag : W32) (body : List Byte)
  | status (ch : ObtChan) (tag : W32) (body : List Byte)
  | eventsRead (ch : ObtChan) (tag : W32) (body : List Byte)
  | eventsClear (ch : ObtChan) (tag : W32) (body : List Byte)
  | nonce (ch : ObtChan) (tag : W32) (body : List Byte)
  | valuesRead (ch : ObtChan) (tag : W32) (body : List Byte)
  | valuesEdit (ch : ObtChan) (tag : W32) (body : List Byte)
  | monitorsRead (ch : ObtChan) (tag : W32) (body : List Byte)
  | ageingRead (ch : ObtChan) (tag : W32) (body : List Byte)
  | taskStart (ch : ObtChan) (tag : W32) (body : List Byte)
  | taskStop (ch : ObtChan) (tag : W32) (body : List Byte)
  | swap (ch : ObtChan) (tag : W32) (body : List Byte)
  | partnerReset (ch : ObtChan) (tag : W32) (body : List Byte)
  | updateBegin (ch : ObtChan) (tag : W32) (body : List Byte)
  | updateBlock (ch : ObtChan) (tag : W32) (body : List Byte)
  | updateVerify (ch : ObtChan) (tag : W32) (body : List Byte)
  | updateActivate (ch : ObtChan) (tag : W32) (body : List Byte)
  | attest (ch : ObtChan) (tag : W32) (body : List Byte)
  | calendarSet (ch : ObtChan) (tag : W32) (body : List Byte)
  | calendarRead (ch : ObtChan) (tag : W32) (body : List Byte)
  -- Headframe events and service calls (R365-R371)
  | interruptEntry
  | hfSvcPop (p : Bool)
  | hfLock (p : Bool)
  | hfWinCtlWrite (value : W16) (p : Bool)
  | svcEvent
  | svcCalread
  | svcStore
  | svcIntegrator
  -- ageing and health monitors (R472-R488)
  | canaryMeasurement (i : Fin 48) (ps : W16)
  | ringOscillatorMeasurement (i : Island) (ppm : W16)
  | ledgerAccumulate (tj : Nat × Nat) (mv : Nat × Nat)
  | marginPlanDue (slacks : List W16)
  | ageCmd (slacks : List W16) (p : Bool)
  | ldoStep (l : LaneId)
  | laneRemeasure (l : LaneId) (slacks : List W16)
  | dividerStep (l : LaneId)
  | monitorSample (m : Point) (value : W32)
  | hltSel (value : W16) (p : Bool)
  | hltClr (p : Bool)
  | hltXwidthHi (value : W16) (p : Bool)
  | laneRailFault (l : LaneId)
  -- the pillar store and the backup domain (R489-R513)
  | pilPage (value : W16) (p : Bool)
  | pilGdata (value : W16) (p : Bool)
  | pilCommit (p : Bool)
  | pilCmdStore (p : Bool)
  | retainCopy
  | pillarStoreEnd (t10us : W16)
  | pillarScrub (pass : PillarPass)
  | laneMemoryScrub (l : LaneId) (pass : ScrubPass)
  | powerFailWarning
  | powerFailWarningClear
  | calendarTick
  | bkpSetMs (value : W16) (p : Bool)
  | bkpAlmMs (value : W16) (p : Bool)
  | bkpPwronRel (p : Bool)
  | pwronTimeout
  | bkpCalFracRead (p : Bool)
  | backupSupplySwitch
  | backupSupplyReturn
  | validityLatchSet
  | lastTimeCommit
  -- the event recorder (R514-R530)
  | eventRecordWrite
  | rateWindowClose (code : Option W16)
  | evtPost (p : Bool)
  | evtRsel (value : W16) (p : Bool)
  -- test access (R562-R575)
  | tapReset
  | extest
  | idcode
  | samplePreload (pins : BitVec 164)
  | clamp
  | highz
  | fieldtest
  | fieldLoopbackUpdate (drive : BitVec 34)
  | dbgauth
  | bypass (code : Byte)
  | debugChallenge
  | debugResponse (scope : Byte) (keysel : Byte) (pubkey : List Byte) (sig : List Byte)
  | debugCheckComplete
  | halt (t : DbgTarget)
  | step (t : DbgTarget)
  | resume (t : DbgTarget)
  | readReg (t : DbgTarget) (addr : BitVec 24)
  | writeReg (t : DbgTarget) (addr : BitVec 24) (data : W36)
  | readMem (t : DbgTarget) (addr : BitVec 24)
  | writeMem (t : DbgTarget) (addr : BitVec 24) (data : W36)
  | burn (word : BitVec 24) (data : W36)
  | keygen
  -- lane bit instructions (R195, R196)
  | nop (l : LaneId) (c : Cond)
  | ld (l : LaneId) (c : Cond) (seg : Sel) (word : BitVec 17) (bit : BitVec 6)
  | ldn (l : LaneId) (c : Cond) (seg : Sel) (word : BitVec 17) (bit : BitVec 6)
  | and (l : LaneId) (c : Cond) (seg : Sel) (word : BitVec 17) (bit : BitVec 6)
  | andn (l : LaneId) (c : Cond) (seg : Sel) (word : BitVec 17) (bit : BitVec 6)
  | or (l : LaneId) (c : Cond) (seg : Sel) (word : BitVec 17) (bit : BitVec 6)
  | orn (l : LaneId) (c : Cond) (seg : Sel) (word : BitVec 17) (bit : BitVec 6)
  | xor (l : LaneId) (c : Cond) (seg : Sel) (word : BitVec 17) (bit : BitVec 6)
  | xorn (l : LaneId) (c : Cond) (seg : Sel) (word : BitVec 17) (bit : BitVec 6)
  | st (l : LaneId) (c : Cond) (seg : Sel) (word : BitVec 17) (bit : BitVec 6)
  | stn (l : LaneId) (c : Cond) (seg : Sel) (word : BitVec 17) (bit : BitVec 6)
  | set (l : LaneId) (c : Cond) (seg : Sel) (word : BitVec 17) (bit : BitVec 6)
  | clr (l : LaneId) (c : Cond) (seg : Sel) (word : BitVec 17) (bit : BitVec 6)
  | ped (l : LaneId) (c : Cond) (seg : Sel) (word : BitVec 17) (bit : BitVec 6)
  | ned (l : LaneId) (c : Cond) (seg : Sel) (word : BitVec 17) (bit : BitVec 6)
  | ldp (l : LaneId) (c : Cond) (seg : Sel) (word : BitVec 17) (bit : BitVec 6)
  | ldnp (l : LaneId) (c : Cond) (seg : Sel) (word : BitVec 17) (bit : BitVec 6)
  | push (l : LaneId) (c : Cond)
  | pop (l : LaneId) (c : Cond)
  | andp (l : LaneId) (c : Cond)
  | orp (l : LaneId) (c : Cond)
  | xorp (l : LaneId) (c : Cond)
  | setl (l : LaneId) (c : Cond)
  | clrl (l : LaneId) (c : Cond)
  | notl (l : LaneId) (c : Cond)
  | ldxb (l : LaneId) (c : Cond) (xreg : Reg) (bit : BitVec 6)
  | stxb (l : LaneId) (c : Cond) (xreg : Reg) (bit : BitVec 6)
  | tstb (l : LaneId) (c : Cond) (seg : Sel) (word : BitVec 17) (bit : BitVec 6)
  -- lane 36-bit arithmetic and logic (R209, R214)
  | add (l : LaneId) (c : Cond) (xd xa xb : Reg)
  | adc (l : LaneId) (c : Cond) (xd xa xb : Reg)
  | sub (l : LaneId) (c : Cond) (xd xa xb : Reg)
  | sbc (l : LaneId) (c : Cond) (xd xa xb : Reg)
  | alu36And (l : LaneId) (c : Cond) (xd xa xb : Reg)
  | alu36Or (l : LaneId) (c : Cond) (xd xa xb : Reg)
  | alu36Xor (l : LaneId) (c : Cond) (xd xa xb : Reg)
  | alu36Andn (l : LaneId) (c : Cond) (xd xa xb : Reg)
  | mov (l : LaneId) (c : Cond) (xd xa : Reg)
  | not (l : LaneId) (c : Cond) (xd xa : Reg)
  | neg (l : LaneId) (c : Cond) (xd xa : Reg)
  | abs (l : LaneId) (c : Cond) (xd xa : Reg)
  | mul (l : LaneId) (c : Cond) (xd xa xb : Reg)
  | mulh (l : LaneId) (c : Cond) (xd xa xb : Reg)
  | mulhu (l : LaneId) (c : Cond) (xd xa xb : Reg)
  | div (l : LaneId) (c : Cond) (xd xa xb : Reg)
  | divu (l : LaneId) (c : Cond) (xd xa xb : Reg)
  | rem (l : LaneId) (c : Cond) (xd xa xb : Reg)
  | remu (l : LaneId) (c : Cond) (xd xa xb : Reg)
  | min (l : LaneId) (c : Cond) (xd xa xb : Reg)
  | max (l : LaneId) (c : Cond) (xd xa xb : Reg)
  | minu (l : LaneId) (c : Cond) (xd xa xb : Reg)
  | maxu (l : LaneId) (c : Cond) (xd xa xb : Reg)
  | sel (l : LaneId) (c : Cond) (xd xa xb : Reg)
  | addi (l : LaneId) (c : Cond) (xd xa : Reg) (imm : BitVec 18)
  | andi (l : LaneId) (c : Cond) (xd xa : Reg) (imm : BitVec 18)
  | ori (l : LaneId) (c : Cond) (xd xa : Reg) (imm : BitVec 18)
  | xori (l : LaneId) (c : Cond) (xd xa : Reg) (imm : BitVec 18)
  | movi (l : LaneId) (c : Cond) (xd : Reg) (imm : BitVec 22)
  | movh (l : LaneId) (c : Cond) (xd : Reg) (imm : BitVec 14)
  -- lane 72-bit arithmetic (R215)
  | add72 (l : LaneId) (c : Cond) (xd xa xb : Reg)
  | sub72 (l : LaneId) (c : Cond) (xd xa xb : Reg)
  | neg72 (l : LaneId) (c : Cond) (xd xa : Reg)
  | mov72 (l : LaneId) (c : Cond) (xd xa : Reg)
  | mulw (l : LaneId) (c : Cond) (xd xa xb : Reg)
  | mulwu (l : LaneId) (c : Cond) (xd xa xb : Reg)
  | sext (l : LaneId) (c : Cond) (xd xa : Reg)
  | zext (l : LaneId) (c : Cond) (xd xa : Reg)
  | min72 (l : LaneId) (c : Cond) (xd xa xb : Reg)
  | max72 (l : LaneId) (c : Cond) (xd xa xb : Reg)
  -- lane compares (R216) and shifts (R217)
  | cmp (l : LaneId) (c : Cond) (xa xb : Reg)
  | cmn (l : LaneId) (c : Cond) (xa xb : Reg)
  | tst (l : LaneId) (c : Cond) (xa xb : Reg)
  | cmp72 (l : LaneId) (c : Cond) (xa xb : Reg)
  | cmpi (l : LaneId) (c : Cond) (xa : Reg) (imm : BitVec 18)
  | lsl (l : LaneId) (c : Cond) (xd xa : Reg) (s : ShAmt)
  | lsr (l : LaneId) (c : Cond) (xd xa : Reg) (s : ShAmt)
  | asr (l : LaneId) (c : Cond) (xd xa : Reg) (s : ShAmt)
  | rol (l : LaneId) (c : Cond) (xd xa : Reg) (s : ShAmt)
  | ror (l : LaneId) (c : Cond) (xd xa : Reg) (s : ShAmt)
  | lsl72 (l : LaneId) (c : Cond) (xd xa : Reg) (s : ShAmt)
  | lsr72 (l : LaneId) (c : Cond) (xd xa : Reg) (s : ShAmt)
  | asr72 (l : LaneId) (c : Cond) (xd xa : Reg) (s : ShAmt)
  | rol72 (l : LaneId) (c : Cond) (xd xa : Reg) (s : ShAmt)
  | ror72 (l : LaneId) (c : Cond) (xd xa : Reg) (s : ShAmt)
  -- lane memory words and block instructions (R211, R212, R218)
  | ldw (l : LaneId) (c : Cond) (xd : Reg) (seg : Sel) (off : MemOff)
  | stw (l : LaneId) (c : Cond) (xd : Reg) (seg : Sel) (off : MemOff)
  | ldd (l : LaneId) (c : Cond) (xd : Reg) (seg : Sel) (off : MemOff)
  | std (l : LaneId) (c : Cond) (xd : Reg) (seg : Sel) (off : MemOff)
  | bmov (l : LaneId) (c : Cond) (segd segs : Sel) (dir : Bool)
  | bfill (l : LaneId) (c : Cond) (segd : Sel) (dir : Bool)
  -- lane timers, counters and time (R221-R227)
  | ton (l : LaneId) (c : Cond) (seg : Sel) (xp : Reg) (word : BitVec 17)
  | tof (l : LaneId) (c : Cond) (seg : Sel) (xp : Reg) (word : BitVec 17)
  | tp (l : LaneId) (c : Cond) (seg : Sel) (xp : Reg) (word : BitVec 17)
  | ctu (l : LaneId) (c : Cond) (seg : Sel) (xp : Reg) (word : BitVec 17)
  | ctd (l : LaneId) (c : Cond) (seg : Sel) (xp : Reg) (word : BitVec 17)
  | acc (l : LaneId) (c : Cond) (seg : Sel) (xp : Reg) (word : BitVec 17)
  | load (l : LaneId) (c : Cond) (seg : Sel) (xp : Reg) (word : BitVec 17)
  | gett (l : LaneId) (c : Cond) (xd : Reg)
  -- lane transfers (R228)
  | b (l : LaneId) (c : Cond) (target : BitVec 20)
  | call (l : LaneId) (c : Cond) (target : BitVec 20)
  | jr (l : LaneId) (c : Cond) (xa : Reg)
  | callr (l : LaneId) (c : Cond) (xa : Reg)
  | ret (l : LaneId) (c : Cond)
  -- lane instructions that act outside the lane (R230-R237)
  | tstart (l : LaneId) (c : Cond) (ch : TramCh) (xa : Reg)
  | twait (l : LaneId) (c : Cond) (ch : TramCh) (xd : Reg)
  | tallyCheckIn (l : LaneId) (c : Cond)
  | tallyToken (l : LaneId) (c : Cond) (token : W16)
  | lctlRead (l : LaneId) (c : Cond) (dirWrite : Bool) (xd : Reg) (index : BitVec 12)
  | warnClr (l : LaneId) (c : Cond) (xd : Reg)
  | hfFlag (l : LaneId) (c : Cond) (xd : Reg)
  | feat (l : LaneId) (c : Cond) (xd : Reg) (n : BitVec 2)
  | svc (l : LaneId) (c : Cond) (code : W16)
  | egi (l : LaneId) (c : Cond) (block : BitVec 9)
  | fence (l : LaneId) (c : Cond)
  -- Headframe instructions (R361, R362)
  | hfAdd (c : HCond) (wd wa wb : Reg)
  | hfAdc (c : HCond) (wd wa wb : Reg)
  | hfSub (c : HCond) (wd wa wb : Reg)
  | hfSbc (c : HCond) (wd wa wb : Reg)
  | hfAnd (c : HCond) (wd wa wb : Reg)
  | hfOr (c : HCond) (wd wa wb : Reg)
  | hfXor (c : HCond) (wd wa wb : Reg)
  | hfAndn (c : HCond) (wd wa wb : Reg)
  | hfMov (c : HCond) (wd wa : Reg)
  | hfNot (c : HCond) (wd wa : Reg)
  | hfNeg (c : HCond) (wd wa : Reg)
  | hfLsl (c : HCond) (wd wa wb : Reg)
  | hfLsr (c : HCond) (wd wa wb : Reg)
  | hfAsr (c : HCond) (wd wa wb : Reg)
  | hfRol (c : HCond) (wd wa wb : Reg)
  | hfRor (c : HCond) (wd wa wb : Reg)
  | hfMul (c : HCond) (wd wa wb : Reg)
  | hfMulhu (c : HCond) (wd wa wb : Reg)
  | hfDivu (c : HCond) (wd wa wb : Reg)
  | hfRemu (c : HCond) (wd wa wb : Reg)
  | hfAddi (c : HCond) (wd wa : Reg) (imm : BitVec 14)
  | hfAndi (c : HCond) (wd wa : Reg) (imm : BitVec 14)
  | hfOri (c : HCond) (wd wa : Reg) (imm : BitVec 14)
  | hfXori (c : HCond) (wd wa : Reg) (imm : BitVec 14)
  | hfCmpi (c : HCond) (wa : Reg) (imm : BitVec 14)
  | hfMovi (c : HCond) (wd : Reg) (imm : W16)
  | hfCmp (c : HCond) (wa wb : Reg)
  | hfCmn (c : HCond) (wa wb : Reg)
  | hfTst (c : HCond) (wa wb : Reg)
  | hfLd (c : HCond) (wd wa : Reg) (imm : BitVec 14)
  | hfSt (c : HCond) (wd wa : Reg) (imm : BitVec 14)
  | hfLdi (c : HCond) (wd wa : Reg) (imm : BitVec 14)
  | hfIn (c : HCond) (wd wa : Reg) (imm : BitVec 14)
  | hfOut (c : HCond) (wd wa : Reg) (imm : BitVec 14)
  | hfB (c : HCond) (target : BitVec 15)
  | hfCall (c : HCond) (target : BitVec 15)
  | hfJr (c : HCond) (wa : Reg)
  | hfCallr (c : HCond) (wa : Reg)
  | hfRet (c : HCond)
  | hfReti (c : HCond)
  | hfEi (c : HCond)
  | hfDi (c : HCond)
  | hfWait (c : HCond)
  | hfSwi (c : HCond) (n : Fin 6)
  -- encoding errors (R190, R361)
  | illegalOp (l : LaneId) (word : W36)
  | hfIllegal (word : W32)
  -- remaining events
  | vholdBelowStoreMinimum
  | flashPortDone (port1 : Bool)
  | dirTmoExpiry
  | cryptoEngineDone
  | d2dFrameDiscard (dir : D2dDir) (why : D2dDiscard)
  | tchiasFrameDiscard (why : TchiasDiscard)
  | obtGapExpiry (n : Bus)
  deriving DecidableEq, Repr

end Sys2Proof
end

