-- ==== Sys2Proof/Decode.lean ====
section
/-! DEFINITION. The decoders of the block. `decodeLaneWord` reads a 36-bit lane word (R186-R196, R208-R237) and `decodeHfWord` a
32-bit Headframe word (R359-R362); each answers none for an encoding error, which is what the rows ILLEGAL_OP and HF_ILLEGAL carry.
spec/opcode_table.json gives bits to none of its rows, so `decodeTableWord` spells nothing. -/

namespace Sys2Proof

/-- The `n` bits of a word from bit `lo` up. -/
def wordField {w : Nat} (v : BitVec w) (lo n : Nat) : BitVec n := v.extractLsb' lo n

/-- The register that the 4-bit field from bit `lo` names. -/
def wordReg {w : Nat} (v : BitVec w) (lo : Nat) : Reg := (wordField v lo 4).toFin

/-- The selector that the 3-bit field from bit `lo` names. -/
def wordSel {w : Nat} (v : BitVec w) (lo : Nat) : Sel := (wordField v lo 3).toFin

/-- The condition of a lane word (R187); none for code 15, an extended page prefix (R189). -/
def condOfCode (n : Nat) : Option Cond :=
  match n with
  | 0 => some .al | 1 => some .rs | 2 => some .rc | 3 => some .eq | 4 => some .ne | 5 => some .lt | 6 => some .ge | 7 => some .gt
  | 8 => some .le | 9 => some .lo | 10 => some .hs | 11 => some .vs | 12 => some .vc | 13 => some .fc | 14 => some .fw
  | _ => none

/-- The condition of a Headframe word (R360); none for RS, RC and EXT. -/
def hcondOfCode (n : Nat) : Option HCond :=
  match n with
  | 0 => some .al | 3 => some .eq | 4 => some .ne | 5 => some .lt | 6 => some .ge | 7 => some .gt | 8 => some .le | 9 => some .lo
  | 10 => some .hs | 11 => some .vs | 12 => some .vc | 13 => some .fc | 14 => some .fw
  | _ => none

/-- Some bit of the field is set. -/
def someBits {w : Nat} (v : BitVec w) (lo n : Nat) : Bool := wordField v lo n != 0

/-- The register field from bit `lo` names an odd register, so no pair (R210). -/
def oddField {w : Nat} (v : BitVec w) (lo : Nat) : Bool := v.getLsbD lo

/-! ### Lane words

The checks of a word stand in `laneWordIllegal` alone; the functions after it read the fields of a word that passes them. The
compiler cannot build so many constructors, so they are left to the kernel. -/

/-- A word is an encoding error of a lane: a reserved OP, FN, SUB or MODE, a reserved field that is not zero, an odd pair, BIT above
35, or COND 15 under generation 1 (R188-R190, R208-R210, R228-R237). Fields that a format shows and an instruction does not name are
not read.
DEDUCED, log entry 110. -/
def laneWordIllegal (w : W36) : Bool :=
  let fn := (wordField w 0 6).toNat
  let xd := oddField w 22
  let xa := oddField w 18
  let xb := oddField w 14
  (wordField w 32 4 == 15#4) ||
  (match (wordField w 26 6).toNat with
  | 0x01 => someBits w 0 26
  | 0x12 => someBits w 6 20 || decide (7 < fn)
  | 0x13 => someBits w 10 16 || decide (35 < fn)
  | 0x14 => someBits w 10 16 || decide (35 < fn)
  | 0x15 => decide (35 < fn)
  | 0x18 => someBits w 6 8 || decide (23 < fn)
  | 0x19 => false
  | 0x1A => false
  | 0x1B => false
  | 0x1C => false
  | 0x1D => false
  | 0x1E => someBits w 14 8
  | 0x1F => someBits w 6 8 || decide (9 < fn) || xd || (fn ∈ [0, 1, 2, 3, 8, 9] && xa) || (fn ∈ [0, 1, 8, 9] && xb)
  | 0x20 => someBits w 22 4 || someBits w 6 8 || decide (3 < fn) || (fn == 3 && (xa || xb))
  | 0x21 => someBits w 22 4
  | 0x22 => someBits w 6 8 || !(fn ∈ [0, 1, 2, 3, 4, 8, 9, 10, 11, 12]) || (decide (8 ≤ fn) && (xd || xa))
  | 0x23 => someBits w 13 1 || !(fn ∈ [0, 1, 2, 3, 4, 8, 9, 10, 11, 12]) || (decide (8 ≤ fn) && (xd || xa))
  | 0x24 => false
  | 0x25 => false
  | 0x26 => xd
  | 0x27 => xd
  | 0x28 => someBits w 0 19
  | 0x29 => someBits w 0 19 || someBits w 20 3
  | 0x2A => wordField w 24 2 == 3#2 || oddField w 17
  | 0x2B => oddField w 17
  | 0x2C => someBits w 0 22 || xd
  | 0x2D => someBits w 0 6
  | 0x2E => someBits w 0 6
  | 0x2F => someBits w 22 4 || someBits w 6 12 || decide (2 < fn)
  | 0x30 => someBits w 0 18
  | 0x31 => someBits w 0 18
  | 0x32 => someBits w 16 9 || (!w.getLsbD 25 && someBits w 0 16)
  | 0x33 => someBits w 12 9
  | 0x34 => someBits w 2 20
  | 0x35 => someBits w 16 10
  | 0x36 => someBits w 0 17
  | 0x37 => someBits w 0 26
  | op => if 0x02 ≤ op ∧ op ≤ 0x11 then decide (35 < fn) else true)

/-- Format M of the bit-logic group (R186, R195), of a word that is no encoding error. -/
noncomputable def memBitInsn (l : LaneId) (c : Cond) (op : Nat) (w : W36) : Instr :=
  let seg := wordSel w 23
  let word := wordField w 6 17
  let bit := wordField w 0 6
  match op with
  | 0x02 => .ld l c seg word bit
  | 0x03 => .ldn l c seg word bit
  | 0x04 => .and l c seg word bit
  | 0x05 => .andn l c seg word bit
  | 0x06 => .or l c seg word bit
  | 0x07 => .orn l c seg word bit
  | 0x08 => .xor l c seg word bit
  | 0x09 => .xorn l c seg word bit
  | 0x0a => .st l c seg word bit
  | 0x0b => .stn l c seg word bit
  | 0x0c => .set l c seg word bit
  | 0x0d => .clr l c seg word bit
  | 0x0e => .ped l c seg word bit
  | 0x0f => .ned l c seg word bit
  | 0x10 => .ldp l c seg word bit
  | 0x11 => .ldnp l c seg word bit
  | 0x15 => .tstb l c seg word bit
  | _ => .illegalOp l w

/-- Format S: the stack group by SUB (R186, R196). -/
noncomputable def stackInsn (l : LaneId) (c : Cond) (w : W36) : Instr :=
  match (wordField w 0 6).toNat with
  | 0 => .push l c
  | 1 => .pop l c
  | 2 => .andp l c
  | 3 => .orp l c
  | 4 => .xorp l c
  | 5 => .setl l c
  | 6 => .clrl l c
  | 7 => .notl l c
  | _ => .illegalOp l w

/-- Format X: a register bit (R186, R195). -/
noncomputable def regBitInsn (l : LaneId) (c : Cond) (op : Nat) (w : W36) : Instr :=
  let bit := wordField w 0 6
  if op = 0x13 then .ldxb l c (wordReg w 6) bit else .stxb l c (wordReg w 6) bit

/-- ALU36 by FN (R214). -/
noncomputable def alu36Insn (l : LaneId) (c : Cond) (w : W36) : Instr :=
  let xd := wordReg w 22
  let xa := wordReg w 18
  let xb := wordReg w 14
  match (wordField w 0 6).toNat with
  | 0 => .add l c xd xa xb
  | 1 => .adc l c xd xa xb
  | 2 => .sub l c xd xa xb
  | 3 => .sbc l c xd xa xb
  | 4 => .alu36And l c xd xa xb
  | 5 => .alu36Or l c xd xa xb
  | 6 => .alu36Xor l c xd xa xb
  | 7 => .alu36Andn l c xd xa xb
  | 8 => .mov l c xd xa
  | 9 => .not l c xd xa
  | 10 => .neg l c xd xa
  | 11 => .abs l c xd xa
  | 12 => .mul l c xd xa xb
  | 13 => .mulh l c xd xa xb
  | 14 => .mulhu l c xd xa xb
  | 15 => .div l c xd xa xb
  | 16 => .divu l c xd xa xb
  | 17 => .rem l c xd xa xb
  | 18 => .remu l c xd xa xb
  | 19 => .min l c xd xa xb
  | 20 => .max l c xd xa xb
  | 21 => .minu l c xd xa xb
  | 22 => .maxu l c xd xa xb
  | 23 => .sel l c xd xa xb
  | _ => .illegalOp l w

/-- ALU72 by FN (R215). -/
noncomputable def alu72Insn (l : LaneId) (c : Cond) (w : W36) : Instr :=
  let xd := wordReg w 22
  let xa := wordReg w 18
  let xb := wordReg w 14
  match (wordField w 0 6).toNat with
  | 0 => .add72 l c xd xa xb
  | 1 => .sub72 l c xd xa xb
  | 2 => .neg72 l c xd xa
  | 3 => .mov72 l c xd xa
  | 4 => .mulw l c xd xa xb
  | 5 => .mulwu l c xd xa xb
  | 6 => .sext l c xd xa
  | 7 => .zext l c xd xa
  | 8 => .min72 l c xd xa xb
  | 9 => .max72 l c xd xa xb
  | _ => .illegalOp l w

/-- CMP by FN, XD zero (R216). -/
noncomputable def cmpInsn (l : LaneId) (c : Cond) (w : W36) : Instr :=
  let xa := wordReg w 18
  let xb := wordReg w 14
  match (wordField w 0 6).toNat with
  | 0 => .cmp l c xa xb
  | 1 => .cmn l c xa xb
  | 2 => .tst l c xa xb
  | 3 => .cmp72 l c xa xb
  | _ => .illegalOp l w

/-- SHIFT and SHIFTI by FN (R217). -/
noncomputable def shiftInsn (l : LaneId) (c : Cond) (w : W36) (s : ShAmt) : Instr :=
  let xd := wordReg w 22
  let xa := wordReg w 18
  match (wordField w 0 6).toNat with
  | 0 => .lsl l c xd xa s
  | 1 => .lsr l c xd xa s
  | 2 => .asr l c xd xa s
  | 3 => .rol l c xd xa s
  | 4 => .ror l c xd xa s
  | 8 => .lsl72 l c xd xa s
  | 9 => .lsr72 l c xd xa s
  | 10 => .asr72 l c xd xa s
  | 11 => .rol72 l c xd xa s
  | 12 => .ror72 l c xd xa s
  | _ => .illegalOp l w

/-- The offset of a memory word operand: IX selects DISP18, or XI and DISP14 (R211). -/
def offOf (w : W36) : MemOff :=
  if w.getLsbD 18 then .idx (wordReg w 14) (wordField w 0 14) else .disp (wordField w 0 18)

/-- TIMER by MODE (R208 format T, R223). -/
noncomputable def timerInsn (l : LaneId) (c : Cond) (w : W36) : Instr :=
  let seg := wordSel w 21
  let xp := wordReg w 17
  let word := wordField w 0 17
  match (wordField w 24 2).toNat with
  | 0 => .ton l c seg xp word
  | 1 => .tof l c seg xp word
  | 2 => .tp l c seg xp word
  | _ => .illegalOp l w

/-- CNT72 by MODE (R208 format T, R226). -/
noncomputable def countInsn (l : LaneId) (c : Cond) (w : W36) : Instr :=
  let seg := wordSel w 21
  let xp := wordReg w 17
  let word := wordField w 0 17
  match (wordField w 24 2).toNat with
  | 0 => .ctu l c seg xp word
  | 1 => .ctd l c seg xp word
  | 2 => .acc l c seg xp word
  | _ => .load l c seg xp word

/-- JX by FN, XD and XB zero (R228). -/
noncomputable def jxInsn (l : LaneId) (c : Cond) (w : W36) : Instr :=
  match (wordField w 0 6).toNat with
  | 0 => .jr l c (wordReg w 18)
  | 1 => .callr l c (wordReg w 18)
  | 2 => .ret l c
  | _ => .illegalOp l w

/-- LCTL (R233): a write names WARN_CLR or HF_FLAG by its INDEX; every other write and every read carry the index. -/
noncomputable def lctlInsn (l : LaneId) (c : Cond) (w : W36) : Instr :=
  let xd := wordReg w 21
  let index := wordField w 0 12
  if w.getLsbD 25 && index == 0x100 then .warnClr l c xd
  else if w.getLsbD 25 && index == 0x101 then .hfFlag l c xd
  else .lctlRead l c (w.getLsbD 25) xd index

/-- The body of a lane word by its OP (R190, R209). -/
noncomputable def laneInsn (l : LaneId) (c : Cond) (w : W36) : Instr :=
  let op := (wordField w 26 6).toNat
  let xd := wordReg w 22
  let xa := wordReg w 18
  let imm18 := wordField w 0 18
  match op with
  | 0x01 => .nop l c
  | 0x12 => stackInsn l c w
  | 0x13 => regBitInsn l c op w
  | 0x14 => regBitInsn l c op w
  | 0x18 => alu36Insn l c w
  | 0x19 => .addi l c xd xa imm18
  | 0x1A => .andi l c xd xa imm18
  | 0x1B => .ori l c xd xa imm18
  | 0x1C => .xori l c xd xa imm18
  | 0x1D => .movi l c xd (wordField w 0 22)
  | 0x1E => .movh l c xd (wordField w 0 14)
  | 0x1F => alu72Insn l c w
  | 0x20 => cmpInsn l c w
  | 0x21 => .cmpi l c xa imm18
  | 0x22 => shiftInsn l c w (.reg (wordReg w 14))
  | 0x23 => shiftInsn l c w (.imm (wordField w 6 7))
  | 0x24 => .ldw l c xd (wordSel w 19) (offOf w)
  | 0x25 => .stw l c xd (wordSel w 19) (offOf w)
  | 0x26 => .ldd l c xd (wordSel w 19) (offOf w)
  | 0x27 => .std l c xd (wordSel w 19) (offOf w)
  | 0x28 => .bmov l c (wordSel w 23) (wordSel w 20) (w.getLsbD 19)
  | 0x29 => .bfill l c (wordSel w 23) (w.getLsbD 19)
  | 0x2A => timerInsn l c w
  | 0x2B => countInsn l c w
  | 0x2C => .gett l c xd
  | 0x2D => .b l c (wordField w 6 20)
  | 0x2E => .call l c (wordField w 6 20)
  | 0x2F => jxInsn l c w
  | 0x30 => .tstart l c (wordReg w 22) xa
  | 0x31 => .twait l c (wordReg w 22) xa
  | 0x32 => if w.getLsbD 25 then .tallyToken l c (wordField w 0 16) else .tallyCheckIn l c
  | 0x33 => lctlInsn l c w
  | 0x34 => .feat l c xd (wordField w 0 2)
  | 0x35 => .svc l c (wordField w 0 16)
  | 0x36 => .egi l c (wordField w 17 9)
  | 0x37 => .fence l c
  | _ => memBitInsn l c op w

/-- The instruction that lane `l` decodes from a word (R186-R190, R208, R209); none for an encoding error. -/
noncomputable def decodeLaneWord (l : LaneId) (w : W36) : Option Instr :=
  if laneWordIllegal w then none else (condOfCode (wordField w 32 4).toNat).map (fun c => laneInsn l c w)

/-- The row that a word of lane `l` asks for: its instruction, or ILLEGAL_OP (R188).
DESIGN CHOICE, log entry 4; DEDUCED, log entry 110. -/
noncomputable def laneWordRow (l : LaneId) (w : W36) : Instr := (decodeLaneWord l w).getD (.illegalOp l w)

/-! ### Headframe words -/

/-- A word is an encoding error of the Headframe: the all-zero word, a reserved OP, FN or condition, or a reserved field that is not
zero (R359-R362). Fields that a format shows and an instruction does not name are not read.
DEDUCED, log entry 110. -/
def hfWordIllegal (w : W32) : Bool :=
  let fn := (wordField w 0 10).toNat
  (hcondOfCode (wordField w 28 4).toNat).isNone ||
  (match (wordField w 22 6).toNat with
  | 0x01 => decide (20 ≤ fn)
  | 0x02 => false
  | 0x03 => false
  | 0x04 => false
  | 0x05 => false
  | 0x06 => someBits w 18 4
  | 0x07 => someBits w 16 2
  | 0x08 => decide (3 ≤ fn) || someBits w 18 4
  | 0x10 => false
  | 0x11 => false
  | 0x12 => false
  | 0x13 => false
  | 0x14 => false
  | 0x18 => someBits w 15 7
  | 0x19 => someBits w 15 7
  | 0x1A => decide (4 ≤ fn)
  | 0x1B => !(fn ∈ [0, 1, 2, 8, 9, 10, 11, 12, 13])
  | _ => true)

/-- Format A with OP 0x01: ALU by FN (R362). -/
noncomputable def hfAluInsn (c : HCond) (w : W32) : Instr :=
  let wd := wordReg w 18
  let wa := wordReg w 14
  let wb := wordReg w 10
  match (wordField w 0 10).toNat with
  | 0 => .hfAdd c wd wa wb
  | 1 => .hfAdc c wd wa wb
  | 2 => .hfSub c wd wa wb
  | 3 => .hfSbc c wd wa wb
  | 4 => .hfAnd c wd wa wb
  | 5 => .hfOr c wd wa wb
  | 6 => .hfXor c wd wa wb
  | 7 => .hfAndn c wd wa wb
  | 8 => .hfMov c wd wa
  | 9 => .hfNot c wd wa
  | 10 => .hfNeg c wd wa
  | 11 => .hfLsl c wd wa wb
  | 12 => .hfLsr c wd wa wb
  | 13 => .hfAsr c wd wa wb
  | 14 => .hfRol c wd wa wb
  | 15 => .hfRor c wd wa wb
  | 16 => .hfMul c wd wa wb
  | 17 => .hfMulhu c wd wa wb
  | 18 => .hfDivu c wd wa wb
  | 19 => .hfRemu c wd wa wb
  | _ => .hfIllegal w

/-- CMP by FN, WD zero (R361). -/
noncomputable def hfCmpInsn (c : HCond) (w : W32) : Instr :=
  let wa := wordReg w 14
  let wb := wordReg w 10
  match (wordField w 0 10).toNat with
  | 0 => .hfCmp c wa wb
  | 1 => .hfCmn c wa wb
  | 2 => .hfTst c wa wb
  | _ => .hfIllegal w

/-- JX by FN (R361). -/
noncomputable def hfJxInsn (c : HCond) (w : W32) : Instr :=
  match (wordField w 0 10).toNat with
  | 0 => .hfJr c (wordReg w 14)
  | 1 => .hfCallr c (wordReg w 14)
  | 2 => .hfRet c
  | 3 => .hfReti c
  | _ => .hfIllegal w

/-- SYS by FN (R361). -/
noncomputable def hfSysInsn (c : HCond) (w : W32) : Instr :=
  match (wordField w 0 10).toNat with
  | 0 => .hfEi c
  | 1 => .hfDi c
  | 2 => .hfWait c
  | 8 => .hfSwi c 0
  | 9 => .hfSwi c 1
  | 10 => .hfSwi c 2
  | 11 => .hfSwi c 3
  | 12 => .hfSwi c 4
  | 13 => .hfSwi c 5
  | _ => .hfIllegal w

/-- The body of a Headframe word by its OP (R361). -/
noncomputable def hfInsn (c : HCond) (w : W32) : Instr :=
  let wd := wordReg w 18
  let wa := wordReg w 14
  let imm := wordField w 0 14
  match (wordField w 22 6).toNat with
  | 0x01 => hfAluInsn c w
  | 0x02 => .hfAddi c wd wa imm
  | 0x03 => .hfAndi c wd wa imm
  | 0x04 => .hfOri c wd wa imm
  | 0x05 => .hfXori c wd wa imm
  | 0x06 => .hfCmpi c wa imm
  | 0x07 => .hfMovi c wd (wordField w 0 16)
  | 0x08 => hfCmpInsn c w
  | 0x10 => .hfLd c wd wa imm
  | 0x11 => .hfSt c wd wa imm
  | 0x12 => .hfLdi c wd wa imm
  | 0x13 => .hfIn c wd wa imm
  | 0x14 => .hfOut c wd wa imm
  | 0x18 => .hfB c (wordField w 0 15)
  | 0x19 => .hfCall c (wordField w 0 15)
  | 0x1A => hfJxInsn c w
  | 0x1B => hfSysInsn c w
  | _ => .hfIllegal w

/-- The instruction that the Headframe decodes from a word (R359-R362); none for an encoding error. -/
noncomputable def decodeHfWord (w : W32) : Option Instr :=
  if hfWordIllegal w then none
  else (hcondOfCode (wordField w 28 4).toNat).map (fun c => hfInsn c w)

/-- The row that a Headframe word asks for: its instruction, or HF_ILLEGAL (R360).
DESIGN CHOICE, log entry 4; DEDUCED, log entry 110. -/
noncomputable def hfWordRow (w : W32) : Instr := (decodeHfWord w).getD (.hfIllegal w)

/-! ### The opcode table -/

/-- The command that a word of `nbits` bits spells by the table's bits: none, since the table gives no row any bits.
DESIGN CHOICE, log entry 4. -/
def decodeTableWord (_nbits _w : Nat) : Option Instr := none

end Sys2Proof
end

