-- ==== Sys2Proof/Config.lean ====
section
/-! DEFINITION. What the manual names and does not compute: the cryptographic functions, the entropy source and the free
values. Every constant here is opaque: nothing can be proved about its value, so a statement holds for every choice. -/

namespace Sys2Proof.Config

open Sys2Proof

/-- SHAKE256 of a byte string, with the output length in bytes (R75, R79, R534; the function itself is the standard's).
DESIGN CHOICE, log entry 11. -/
opaque shake256 : (outBytes : Nat) → List Byte → List Byte

/-- Ed448ph verification under RFC 8032: context string, public key, message, signature (R79, R534, R546).
DESIGN CHOICE, log entry 11. -/
opaque ed448phVerify : (context : List Byte) → (pub : List Byte) → (msg : List Byte) → (sig : List Byte) → Bool

/-- Ed448ph signature by the part's identity key: context string and message (R545).
DESIGN CHOICE, log entry 11. -/
opaque identitySign : (idSeed : Nat) → (context : List Byte) → (msg : List Byte) → List Byte

/-- X448 of the part's transport private key and a public key (R536).
DESIGN CHOICE, log entry 11. -/
opaque x448 : (idSeed : Nat) → (pub : List Byte) → List Byte

/-- AES-256-GCM (R536): byte i of the keystream of a key and an IV, and whether a tag holds over AAD and ciphertext.
DESIGN CHOICE, log entry 11. -/
opaque aesKeystream : (key iv : List Byte) → (i : Nat) → Byte
opaque aesTagHolds : (key iv aad ct tag : List Byte) → Bool

/-- The public keys that the key generation numbered by its argument made (R544, R574).
DESIGN CHOICE, log entry 11. -/
opaque identityPub : Nat → List Byte
opaque transportPub : Nat → List Byte

/-- Ed448ph signature by the vendor root key: context string and message (R544).
DESIGN CHOICE, log entry 11. -/
opaque vendorSign : (context : List Byte) → (msg : List Byte) → List Byte

/-- The on-die entropy source: the n-th 32-byte nonce it gives (R440 NONCE, R546).
DESIGN CHOICE, log entries 11, 61. -/
opaque entropy : Nat → List Byte

/-- A lane word the manual leaves undefined: a read of untracked data in breach of R130 or R253.
DESIGN CHOICE, log entry 9. -/
opaque freeWord : Nat → W36

/-- A choice the manual leaves open: an nRESET pulse of 0.2 µs to 1 µs (R87).
DESIGN CHOICE, log entry 9; DEDUCED, log entry 76. -/
opaque freeBool : Nat → Bool

/-- The words in which vendor firmware posts the calendar time for CALREAD (R371): the manual gives no layout for them.
DESIGN CHOICE, log entry 34. -/
opaque calWord : (time : BitVec 48) → (index : Nat) → W36

/-- A number the manual leaves open within bounds: the free value's residue below the bound.
DESIGN CHOICE, log entry 38. -/
opaque freeNat : Nat → Nat

/-- Whether the acceleration factor of R474, a real number, is rounded up to the accumulator's units; the manual gives no rounding.
DESIGN CHOICE, log entry 52. -/
opaque accelRoundUp : (tj : Nat) → (mv : Nat) → Bool

/-- CODE of a unit fault that R295 makes of a fault which R609 does not list.
DEDUCED, log entry 105. -/
opaque freeCode : Nat → BitVec 16

/-- The remaining life where the formula of R480 has no value (no slack lost yet, or no time passed).
DESIGN CHOICE, log entry 51. -/
opaque freeLife : Nat → BitVec 16

/-- Codes of the events that the manual calls for and R529 does not list: 0 an LDO code lowered to VMAX (R479), 1 a step of the unit time
(R342), 2 a takeover declined for a lost claim wire (R558).
DEDUCED, log entry 12. -/
opaque unlistedCode : Nat → BitVec 16

/-- TURN of a HELLO (R324): nanoseconds that the link measures between two frames; the model has no time below a microsecond.
DESIGN CHOICE, log entry 83. -/
opaque freeTurn : Nat → W32

/-- The bytes of an image that the vendor's own format leaves open (R534: the firmware body).
DESIGN CHOICE, log entries 9, 94. -/
opaque freeByte : Nat → Byte

/-- What a cell of the boundary register belongs to: an output cell or an input cell of a ball; none for a control cell. The BSDL file
fixes the order (R567).
DESIGN CHOICE, log entry 124. -/
opaque boundaryCell : (cell : Nat) → Option (Ball × Bool)

/-- The levels that stand on the balls from outside, by the number of the capture (R567).
DESIGN CHOICE, log entry 124. -/
opaque pinLevels : Nat → BitVec 164

/-- The instant of a swap's trigger as its new active part has it, which no frame carries (R355).
DEDUCED, log entry 107. -/
opaque freeTrigger : Nat → BitVec 72

/-- The payload of a CONFIG frame: R391 names what it carries and gives no layout.
DESIGN CHOICE, log entry 97. -/
opaque configPayload : FieldConfig → List Byte

/-- The field die's firmware in a firmware image, whose body is the vendor's own (R391, R534).
DESIGN CHOICE, log entry 97. -/
opaque fieldFirmware : List Byte → List Byte

end Sys2Proof.Config
end

