-- ==== Sys2Proof/Machine/Bits.lean ====
section
/-! DEFINITION. Byte order, cyclic redundancy codes and saturating counters, used by every block. -/

namespace Sys2Proof.Machine

open Sys2Proof

/-- The little-endian bytes of a number (R47, R424). -/
def leBytes (count value : Nat) : List Byte :=
  (List.range count).map (fun i => BitVec.ofNat 8 (value >>> (8 * i)))

/-- The number that little-endian bytes hold. -/
def leNat (bs : List Byte) : Nat := bs.foldr (fun b acc => b.toNat + 256 * acc) 0

/-- The number in `count` bytes from offset `off` of a byte string; bytes past the end read as zero. -/
def leAt (bs : List Byte) (off count : Nat) : Nat := leNat ((bs.drop off).take count)

/-- One bit of a reflected CRC. -/
def crcBitRefl {w : Nat} (poly : BitVec w) (reg : BitVec w) (bit : Bool) : BitVec w :=
  let fb := reg.getLsbD 0 != bit
  let sh := reg >>> (1 : Nat)
  if fb then sh ^^^ poly else sh

/-- One bit of a CRC that is fed most significant bit first. -/
def crcBitMsb {w : Nat} (poly : BitVec w) (reg : BitVec w) (bit : Bool) : BitVec w :=
  let fb := reg.getLsbD (w - 1) != bit
  let sh := reg <<< (1 : Nat)
  if fb then sh ^^^ poly else sh

/-- The bits of a byte, least significant first. -/
def byteBitsLsb (b : Byte) : List Bool := (List.range 8).map b.getLsbD

/-- The bits of a bit vector, most significant first. -/
def bitsMsb {w : Nat} (v : BitVec w) : List Bool := (List.range w).map (fun i => v.getLsbD (w - 1 - i))

/-- CRC-32C (R50): 0x1EDC6F41 reflected, initial value and final exclusive-or all ones. -/
def crc32c (bs : List Byte) : W32 :=
  (bs.flatMap byteBitsLsb).foldl (crcBitRefl 0x82F63B78#32) 0xFFFFFFFF#32 ^^^ 0xFFFFFFFF#32

/-- CRC-16 of R422: polynomial 0x1021, initial value 0xFFFF, neither reflected nor inverted. -/
def crc16 (bs : List Byte) : W16 :=
  (bs.flatMap (fun b => bitsMsb b)).foldl (crcBitMsb 0x1021#16) 0xFFFF#16

/-- CRC-8 of the claim wire (R332): polynomial 0x2F, initial value 0xFF, fed most significant bit first. -/
def crc8 (bits : List Bool) : Byte := bits.foldl (crcBitMsb 0x2F#8) 0xFF#8

/-- One commit record folded into a signature (R281): x^128 + x^7 + x^2 + x + 1, most significant bit first. -/
def crc128 (reg : BitVec 128) (record : BitVec 128) : BitVec 128 :=
  (bitsMsb record).foldl (crcBitMsb 0x87#128) reg

/-- A counter that stops at its ceiling. -/
def satAdd (ceiling a b : Nat) : Nat := min ceiling (a + b)

/-- A 16-bit counter that stops at 0xFFFF. -/
def sat16 (a b : Nat) : Nat := satAdd 0xFFFF a b

/-- A bit as a number. -/
def bit (b : Bool) : Nat := if b then 1 else 0

/-- A port value made of fields, each a lowest bit and a number (R9). -/
def fields (fs : List (Nat × Nat)) : W16 :=
  BitVec.ofNat 16 (fs.foldl (fun acc f => acc ||| (f.2 <<< f.1)) 0)

/-- Bits `hi` down to `lo` of a port value. -/
def bitsOf (v : Nat) (hi lo : Nat) : Nat := (v >>> lo) % 2 ^ (hi + 1 - lo)

/-- A list entry replaced, unchanged where the index is past the end. -/
def listSet {α : Type} (l : List α) (i : Nat) (a : α) : List α := l.set i a

/-- A list entry changed by a function. -/
def listModify {α : Type} (l : List α) (i : Nat) (f : α → α) : List α :=
  match l[i]? with
  | some a => l.set i (f a)
  | none => l

/-- A vector entry changed by a function. -/
def vecModify {α : Type} {n : Nat} (v : Vector α n) (i : Fin n) (f : α → α) : Vector α n := v.set i (f v[i])

/-- The index of the first entry that meets a test. -/
def firstIdx {α : Type} (p : α → Bool) : List α → Option Nat
  | [] => none
  | a :: r => if p a then some 0 else (firstIdx p r).map (· + 1)

end Sys2Proof.Machine
end

