-- ==== Sys2Proof/Machine/State.lean ====
section
/-! DEFINITION. The state of the block: every register, memory, queue, counter and mode that the manual names, as plain data,
and what a step can stop with. The reset values stand at the end. -/

namespace Sys2Proof.Machine

open Sys2Proof

/-! ### The charter in effect (R47-R85) -/

/-- One SEGMENTS record (R58). -/
structure SegRec where
  /-- Bit 0 Lane A, bit 1 Lane B. -/
  lanes : Nat
  /-- 0 IN, 1 OUT, 2 FLAG, 3 RET, 4 CONST, 5 CODE, 6 STACK, 7 SCRATCH, 8 CTX. -/
  kind : Nat
  /-- Bit 0 read, 1 write, 2 execute, 3 tracked, 4 retained, 5 editable. -/
  flags : Nat
  /-- Owning task, or 0xFF for shared. -/
  owner : Nat
  base : Nat
  limit : Nat
  segId : Nat
  deriving DecidableEq, Repr

/-- One TASKS record (R60). -/
structure TaskRec where
  task : Task
  autostart : Bool
  /-- Split mode: true where the task runs on Lane B. -/
  laneB : Bool
  ovrLimit : Nat
  budget : Nat
  minGap : Nat
  floor : Nat
  delta : Nat
  ctxSeg : Nat
  replay : Nat
  entry : Nat
  sel : List Nat
  deriving DecidableEq, Repr

/-- One TALLY record (R61). -/
structure TallyRec where
  task : Task
  reaction : Nat
  ntokens : Nat
  tokens : List W16
  deriving DecidableEq, Repr

/-- One INGRESS record (R63): SRC 0 bus, 1 host mailbox, 2 field. -/
structure IngRec where
  block : Block
  src : Nat
  unit : Nat
  key : W32
  image : Nat
  words : Nat
  frames : Nat
  fresh : Nat
  validWord : Nat
  validBit : Nat
  deriving DecidableEq, Repr

/-- One EGRESS record (R63): DST 0 bus, 1 host mailbox. -/
structure EgrRec where
  block : Block
  dst : Nat
  unit : Nat
  key : W32
  image : Nat
  words : Nat
  task : Task
  deriving DecidableEq, Repr

/-- One BUSES record (R67). -/
structure BusRec where
  bus : Bus
  flags : Nat
  alone : Nat
  nominal : Nat
  data : Nat
  /-- The rate pairs in use. -/
  rates : List (Nat × Nat)
  deriving DecidableEq, Repr

/-- PAIR (R68). -/
structure PairRec where
  unit : Nat
  swapH : Nat
  pairId : W32
  deriving DecidableEq, Repr

/-- One PILLAR record (R69). -/
structure PilRec where
  segId : Nat
  offset : Nat
  words : Nat
  deriving DecidableEq, Repr

/-- One EVENTS record (R70). -/
structure EvtRec where
  code : Nat
  k : Nat
  w : Nat
  deriving DecidableEq, Repr

/-- One MONITORS record (R71). -/
structure MonRec where
  point : Point
  source : Nat
  arg : Nat
  log2 : Bool
  width : Nat
  deriving DecidableEq, Repr

/-- One EDIT record (R74). -/
structure EditRec where
  addr : Nat
  count : Nat
  lanes : Nat
  deriving DecidableEq, Repr

/-- One PROGRAM record (R75). -/
structure ProgRec where
  lanes : Nat
  length : Nat
  hash : List Byte
  deriving DecidableEq, Repr

/-- The head settings of a charter: header, MODE, ISLANDS, the TALLY, FIELD, EVENTS, AGEING and GRANTS heads, trailer. -/
structure CharterHead where
  generation : Nat
  serial : W32
  minFw : W32
  split : Bool
  scrubDis : Bool
  offset : Nat
  checkpoint : Nat
  /-- DIV of the ten working islands, in the order of R57. -/
  div : List Nat
  ref : Nat
  xoscWin : Nat
  rampStep : Nat
  wdtPeriod : Nat
  wdtClk : Nat
  silenceMs : Nat
  evtK : Nat
  evtW : Nat
  ageFlags : Nat
  ageLife : Nat
  ageVmax : Nat
  grants : W32
  keyix : Nat
  pubkey : List Byte
  /-- The 256-bit pair hash of R336. -/
  pairHash : List Byte
  /-- SHAKE256 of the whole stream, 64 bytes (R83). -/
  hash : List Byte
  deriving DecidableEq, Repr

/-- A charter's settings, decoded. -/
structure Charter where
  head : CharterHead
  segs : List SegRec
  tasks : List TaskRec
  tally : List TallyRec
  ingress : List IngRec
  egress : List EgrRec
  field : List FieldRec
  buses : List BusRec
  pair : Option PairRec
  pillar : List PilRec
  events : List EvtRec
  monitors : List MonRec
  edits : List EditRec
  programs : List ProgRec
  frames : List FrameRec
  deriving DecidableEq, Repr

/-- The charter latch, the CHT ports and the charter in effect (R82, R83, R85). -/
structure ChtState where
  /-- The charter in effect, none in the no-charter state. -/
  charter : Option Charter
  /-- The charter that the CHT ports still show after a program signature failure (R613). -/
  shown : Option Charter
  /-- CHT.STAT.REFUSED, SLOT. -/
  refused : Bool
  slotB : Bool
  /-- CHT.CODE, CHT.SECT, CHT.OFFS (R84). -/
  code : Nat
  sect : Nat
  offs : W32
  /-- Every parity check of the charter latch passes (R83). -/
  latchOk : Bool
  /-- The stream's SHAKE256 hash as the charter latch holds it (R83). -/
  latchHash : List Byte
  /-- Generation counter of the active slot when the charter was loaded (R83). -/
  latchGen : W32
  deriving DecidableEq, Repr

/-! ### Memories -/

/-- A sparse memory: (address, word) pairs, addresses strictly rising, no word equal to 0. An unlisted address reads 0. -/
abbrev Mem (w : Nat) := List (Nat × BitVec w)

/-! ### A lane (R111-R241) -/

/-- The architectural state of a lane for the task it runs (R183). -/
structure Ctx where
  x : Vector W36 16
  rlr : Bool
  /-- The bit stack, newest entry first, at most 8 entries. -/
  stack : List Bool
  n : Bool
  z : Bool
  c : Bool
  v : Bool
  /-- S0-S7: bit 8 VALID, bits 7-0 descriptor index (R243). -/
  sel : Vector (BitVec 9) 8
  pc : BitVec 20
  /-- The cycle stands at its program end (R254, R262). -/
  atEnd : Bool
  deriving DecidableEq, Repr

/-- The pass in which a cycle executes (R164, R166, R175, R268). -/
inductive Pass where
  | first | replay | resumed | full
  deriving DecidableEq, Repr

/-- Why a cycle does not execute: it runs, it stands at a fence (R169), at a provisional exception (R172), at its program
end, between replayed instances (R164), or it waits to be executed in full (R175 step 3). -/
inductive Hold where
  | run
  | fence
  /-- The code, the element of a block instruction, and whether a descriptor parity error raised it. -/
  | provisional (code : Byte) (elem : Nat) (par : Bool)
  | progEnd
  | replayNext
  | waitFull
  deriving DecidableEq, Repr

/-- An entry of the instance table, with the tokens the instance retired (R154, R170). -/
structure Inst where
  block : Nat
  entry : BitVec 20
  x13in : W36
  x14in : W36
  x13out : W36
  x14out : W36
  /-- Exit target: an address of the CODE segment, LENGTH at the program end. -/
  exit : Nat
  length : Nat
  dirty : Bool
  tokens : List W16
  /-- The entry carries an uncorrectable error (R268). -/
  err : Bool
  deriving DecidableEq, Repr

/-- What a lane keeps for one open cycle beside its registers (R118, R167, R175, R233). -/
structure LCycle where
  number : W32
  sk : W72
  tk : W72
  /-- The stamp of Tk once the sequencer has delivered its passage to this lane (R124, R127). -/
  tkStamp : Option Nat
  fc : Bool
  fw : Bool
  insts : List Inst
  /-- The instance that executes. -/
  cur : Nat
  pass : Pass
  hold : Hold
  /-- The registers are not set up yet: the cycle has not had the lane (R118). -/
  fresh : Bool
  /-- The context lies in the save area (R262). -/
  saved : Bool
  /-- Where the forward pass goes on, LENGTH at the program end. -/
  fwd : Nat
  /-- X13 and X14 with which the forward pass goes on. -/
  fwd13 : W36
  fwd14 : W36
  /-- The registers with which the forward pass stands (R172, R179). -/
  fwdCtx : Ctx
  /-- What the forward pass stands at: a fence, a provisional exception or the program end. -/
  fwdHold : Hold
  /-- The forward pass runs after a truncation (R166). -/
  resumed : Bool
  replayCount : Nat
  /-- REPLAY latched at the cycle start (R270). -/
  replayLimit : Nat
  /-- Words and last values the replayed instance wrote in its previous pass, and the words it has written in this pass. -/
  prevWrites : List (Nat × W36)
  curWrites : List Nat
  /-- The replayed instance was cut short by a write to a word its previous pass did not write (R166). -/
  truncated : Bool
  /-- Elements that the block instruction in progress has completed (R219, R220). -/
  elem : Nat
  /-- The cycle was reopened by an assay rollback (R294). -/
  reopened : Bool
  svcOrd : Nat
  /-- LCTL words latched at the cycle start: OVR, FALLBACK (R233). -/
  ovr : W36
  fallback : W36
  /-- Token checking of the task, latched at the cycle start (R310 TOKEN_EN). -/
  tokenEn : Bool
  fold : BitVec 128
  nrec : Nat
  /-- Untracked words the cycle has written: address, writing instance and value (R125, R130). -/
  uw : List (Nat × Nat × W36)
  /-- A channel start of this cycle has not ended, as this lane sees it (R231). -/
  tramBusy : Bool
  /-- The cycle has started its channel, and no TWAIT has found it idle since (R231, R253). -/
  tramStarted : Bool
  /-- The lane-space words that the channel runs started since the last TWAIT write: first word and number of words (R253). -/
  tramDst : List (Nat × Nat)
  /-- Source words of the started channel that the cycle overwrote after its TSTART, with the value at that point (R252). -/
  shadow : List (Nat × W36)
  /-- Lane-space words that channel runs of this cycle have written since its last TWAIT, the run in hand apart (R253). -/
  moved : List Nat
  deriving DecidableEq, Repr

/-- An entry of the vein table or of a read set (R156, R157): source none is base. -/
structure Vein where
  task : Task
  inst : Nat
  addr : Nat
  src : Option Nat
  /-- Retired-instruction count at which the read retired (R162). -/
  count : W48
  /-- The entry carries an uncorrectable error (R268). -/
  err : Bool
  deriving DecidableEq, Repr

/-- A record of the stope journal (R159, R160): W records of open cycles, W records of committed cycles, E records. -/
structure JRec where
  addr : Nat
  /-- The value the record's write or event overwrote. -/
  old : W36
  isW : Bool
  task : Task
  cycle : W32
  inst : Nat
  /-- Stamp of the event or of the commit; none for a W record of an open cycle. -/
  stamp : Option Nat
  /-- The record carries an uncorrectable error (R268). -/
  err : Bool
  /-- The next event stamp when the record was appended, by which the vein unit knows what is newer (R161). -/
  born : Nat
  deriving DecidableEq, Repr

/-- An entry of the block table (R150). -/
structure BlockEnt where
  start : Nat
  fence : Bool
  fenceReq : Bool
  deriving DecidableEq, Repr

/-- Why a lane that has work does not retire (R231, R235, R275). -/
inductive LStall where
  | none | twait | svc
  deriving DecidableEq, Repr

/-- One logic lane with its memory, image copy and vein unit. -/
structure Lane where
  /-- Physical word space: lane memory from 0, image copy from 0x20_0000 (R28). -/
  mem : Mem 36
  /-- Words with an uncorrectable error (R30, R31). -/
  bad : List Nat
  /-- Words with a single-bit error, which every read corrects (R30, R31, R194). -/
  single : List Nat
  /-- Descriptors that fail their parity check (R245). -/
  descPar : List Nat
  /-- The running task and its registers; none while the lane is idle. -/
  cur : Option Task
  ctx : Ctx
  /-- Retired-instruction count (R272). -/
  count : W48
  cycles : Vector (Option LCycle) 16
  vein : List Vein
  readSet : List Vein
  /-- Journal records, newest first. -/
  journal : List JRec
  /-- A pre-emption request delivered to the lane (R124). -/
  preReq : Bool
  stall : LStall
  /-- Stopped by a unit fault, a rollback or a reset (R90, R293, R554). -/
  stopped : Bool
  /-- Halted by a debug session (R572). -/
  halted : Bool
  /-- A single step is allowed to a halted lane (R572). -/
  stepOne : Bool
  blocks : List BlockEnt
  ckptFold : BitVec 128
  /-- Commit records waiting for the ASSAY island, at most 64 (R284). -/
  recq : Nat
  /-- VDD rail control code of the lane (R26). -/
  ldo : Nat
  deriving DecidableEq, Repr

/-! ### The sequencer (R112-R149, R278) -/

/-- Where a task stands between its cycles (R112); AHEAD, WAIT, REPLAY and COMMIT follow from its open cycle. -/
inductive TPhase where
  | stopped
  | ready (at_ : W72)
  | opened
  | skip (at_ : W72)
  | faulted
  deriving DecidableEq, Repr

/-- What the sequencer keeps for one task. -/
structure TaskSt where
  phase : TPhase
  /-- Number of the open cycle, or of the next one. -/
  number : W32
  /-- Instant S of the open cycle. -/
  sk : W72
  /-- The next cycle is the first after a start, and that start was warm (R104). -/
  firstCycle : Bool
  firstWarm : Bool
  /-- The task has not been started since a warm start of the part (R104). -/
  warmDue : Bool
  consec : Nat
  /-- The overrun warning LANE.OVRW (R141). -/
  ovrWarn : Bool
  /-- The open cycle has overrun. -/
  overrun : Bool
  stopReq : Bool
  /-- Fallback code of the open cycle and of the last closed one, and the fallback count (R176). -/
  fbRun : Nat
  fbCode : Nat
  fbCount : Nat
  hfFlag : W16
  /-- LANE.REPLAYn (R270). -/
  replay : W32
  deriving DecidableEq, Repr

/-- An event of the delivery list (R278). -/
inductive DEvent where
  /-- A cycle start with what it latched (R233). -/
  | cycleStart (t : Task) (c : LCycle)
  | tkPassage (t : Task) (stamp : Nat)
  | preempt
  /-- An ingress application, validity change or edit: words with their new values. -/
  | words (ws : List (Nat × W36)) (stamp : Nat)
  | commitDone (t : Task)
  | tramDone (t : Task)
  deriving DecidableEq, Repr

structure SeqState where
  /-- Unit time, and whether it advances (R116). -/
  ut : W72
  running : Bool
  /-- Number of the next event stamp (R127). -/
  stamp : Nat
  tasks : Vector TaskSt 16
  delivery : List (DEvent × W48)
  /-- The oldest queued edit has been counted as held for a full delivery list (R279). -/
  editHeld : Bool
  /-- A commit has ended with edits queued: the oldest is applied before the next commit (R145). -/
  editNext : Bool
  /-- LANE.DESC_STAT, and the fault report ports LANE.FLT_* (R269, R270). -/
  parA : Bool
  parB : Bool
  fltValid : Bool
  fltDouble : Bool
  fltPass : Nat
  fltTask : Nat
  fltCode : Byte
  fltOneLane : Bool
  fltLane : Bool
  fltPc : Nat
  fltElem : Nat
  fltCyc : W32
  deriving DecidableEq, Repr

/-! ### Trams (R248-R271) -/

/-- A descriptor latched by a tram channel (R250, R251). -/
structure TramDesc where
  srcOff : Nat
  srcSel : Nat
  srcRam : Bool
  /-- Headframe-owned: lane and segment of a lane-space source. -/
  srcLane : Bool
  srcSeg : Nat
  dstOff : Nat
  dstSel : Nat
  dstRam : Bool
  irq : Bool
  count : Nat
  first : Nat
  /-- Every unnamed bit is zero. -/
  clean : Bool
  deriving DecidableEq, Repr

structure TramSt where
  busy : Bool
  fault : Bool
  done : Bool
  code : Byte
  k : Nat
  desc : TramDesc
  /-- Retired-instruction count of the TSTART (R289 TRAM). -/
  count : W48
  abortReq : Bool
  irqEn : Bool
  /-- TRM.PACEn. -/
  pace : Byte
  deriving DecidableEq, Repr

structure TramState where
  ch : Vector TramSt 16
  denied : Bool
  irq : W16
  /-- The channel served last (R260). -/
  last : TramCh
  deriving DecidableEq, Repr

/-! ### The assay (R272-R300) -/

inductive VKind where
  | commit
  | egi (block : Block)
  | ckpt
  deriving DecidableEq, Repr

/-- A verdict that is pending: what Lane A sent, and what Lane B sent once it has reached the count (R285-R288).
DESIGN CHOICE, log entry 16. -/
structure Verdict where
  kind : VKind
  task : Task
  cycle : W32
  count : W48
  stamp : Nat
  tkStamp : Option Nat
  sigA : BitVec 128
  sigB : Option (BitVec 128)
  /-- Egress blocks read, with their words. -/
  egA : List (Block × List W36)
  egB : List (Block × List W36)
  /-- A tally verdict decided when the commit began forbids the release (R309); what happens is a unit fault with this code. -/
  noRelease : Bool
  /-- Tracked words the commit made visible, for the delta of R339. -/
  writes : List (Nat × W36)
  /-- The trailer of the delta (R340). -/
  overrun : Bool
  stopped : Bool
  consec : Nat
  close : W72
  /-- Nanoseconds by which the close lies after that tick (R119, R481). -/
  sub : Nat
  next : W72
  /-- The consecutive-overrun count and the fallback code before this close (R294). -/
  prevConsec : Nat
  prevFb : Nat
  sk : W72
  tk : W72
  /-- Replay instructions of the cycle (R482). -/
  replays : Nat
  /-- Output bits of the committed image for the command frame (R134). -/
  out : W32
  /-- The cycle that committed, and its fallback code, for a rollback (R293, R294). -/
  cyc : Option LCycle
  fbRun : Nat
  deriving DecidableEq, Repr

/-- The operands of an outside effect (R230, R289). -/
inductive Effect where
  | tstart (ch : TramCh) (desc : List W36)
  | checkIn
  | warnClr (w : W36)
  | hfFlag (w : W36)
  | svc (code : W16) (cycle : W32) (ordinal : Nat) (x : List W36)
  | egi (block : Block)
  deriving DecidableEq, Repr

/-- An outside effect or an exception that Lane A retired and Lane B has still to reach (R230, R289). -/
structure PendEffect where
  task : Task
  cycle : W32
  count : W48
  eff : Effect
  deriving DecidableEq, Repr

structure PendExc where
  task : Task
  cycle : W32
  count : W48
  code : Byte
  pass : Nat
  pc : Nat
  elem : Nat
  deriving DecidableEq, Repr

structure AsyState where
  perm : Bool
  recovery : Bool
  debugOut : Bool
  debug : Bool
  unpaired : Bool
  injOk : Bool
  injRan : Bool
  injFail : Byte
  /-- The release path works: the injection test has passed and no unit fault blocks the gate (R298, R554). -/
  gate : Bool
  /-- The gate stands open after the last verdict: both comparators agreed (R286). -/
  opened : Bool
  misValid : Bool
  misTripA : Bool
  misTripB : Bool
  misTask : Nat
  misCode : Nat
  misCyc : W32
  misN : W48
  transients : Nat
  sigA : BitVec 128
  sigB : BitVec 128
  /-- Signature of the last agreed commit (R300). -/
  agreed : BitVec 128
  holds : Nat
  catchup : Nat
  leadlim : Nat
  pend : List Verdict
  effects : List PendEffect
  exc : Option PendExc
  /-- A mismatch declared at this count whose rollback has not run (R293). -/
  rollback : Option W48
  /-- Tasks whose reopened cycles have not committed with agreement (R295). -/
  reopened : List Task
  deriving DecidableEq, Repr

/-! ### The tally board (R301-R310) and the system watchdog (R311-R318) -/

structure TallySt where
  /-- Check-ins of the open cycle, tokens received with the first of them, and whether TALLY_DUP was raised. -/
  checkIns : Nat
  dupRaised : Bool
  tokens : List W16
  dupCount : Nat
  missCount : Nat
  seqCount : Nat
  deriving DecidableEq, Repr

structure TlyState where
  task : Vector TallySt 16
  dup : W16
  miss : W16
  seq : W16
  firstValid : Bool
  firstKind : Nat
  firstTask : Nat
  firstReaction : Nat
  firstCyc : W32
  firstPos : Nat
  firstGot : W16
  tokenEn : W16
  deriving DecidableEq, Repr

structure WdtState where
  armed : Bool
  /-- The counting clock has stopped: no key can land (R314). -/
  stopped : Bool
  /-- An OUT to WDT.KEY that stays open: its key has no tick to land on (R314). -/
  held : Bool
  /-- Count, 0 to P - 1. -/
  count : Nat
  prewarn : Bool
  trip : Nat
  last : Nat
  land : Nat
  served : Nat
  /-- WDT.PREWARN in ms. -/
  preMs : Nat
  deriving DecidableEq, Repr

/-! ### The event recorder (R514-R530) -/

/-- A posted event: everything that its record will hold but the CRC (R514). -/
structure EvItem where
  time : BitVec 48
  seq : W32
  code : W16
  source : Byte
  flags : Byte
  utime : W32
  param : List Byte
  /-- An OVERRUN whose time is filled in when this task's open cycle closes (R141). -/
  awaits : Option Task
  deriving DecidableEq, Repr

/-- An open rate-limit window; code none is the default window (R521). -/
structure EvWindow where
  code : Option W16
  /-- The code whose posting was suppressed first (R529 SUMMARY). -/
  firstSupp : Option W16
  k : Nat
  w : Nat
  closeAt : W72
  posted : Nat
  suppressed : Nat
  deriving DecidableEq, Repr

structure EvtState where
  /-- The recorder has rebuilt its state and writes records (R520). -/
  ready : Bool
  queue : List EvItem
  seq : W32
  lost : W32
  clears : W32
  suppressed : W32
  count : Nat
  full : Bool
  qovr : Bool
  postDenied : Bool
  summary : Bool
  adopted : Bool
  windows : List EvWindow
  rsel : Nat
  rdata : List W16
  pcode : W16
  psev : BitVec 3
  ppar : Vector W16 6
  defK : Nat
  defW : Nat
  deriving DecidableEq, Repr

/-! ### Resets and starts (R87-R110) -/

/-- SYS.STAT.STATE (R107, R110). -/
inductive SysPhase where
  | starting | running | noCharter | clockHold | halt | bootRecovery
  deriving DecidableEq, Repr

/-- Where a reset or a start stands. -/
inductive StartPhase where
  /-- No reset and no start under way. -/
  | idle
  /-- Reset entry done; a retain copy or store is awaited (R90, R611). -/
  | entered
  /-- Reset rollback done (R91). -/
  | rolledBack
  /-- After reset release: the start chosen is cold or warm (R92). -/
  | released (warm : Bool)
  /-- The start reference is judged: step 2 or 7 (R94, R95, R449). -/
  | judging (step : Nat)
  /-- The PLL locks to the judged reference at step 2 or 7 (R452). -/
  | locking (step : Nat)
  /-- Every island ramps: up to its switch divider before the switch of step 7, or to its target (R452, R454). -/
  | ramping (step : Nat) (up : Bool)
  /-- Negotiation at step 12 (R336). -/
  | negotiating
  deriving DecidableEq, Repr

structure SysState where
  state : SysPhase
  phase : StartPhase
  /-- Surroundings of the start under way (COLD_START, WARM_START). -/
  env : Option StartEnv
  expertDenied : Bool
  retLost : Bool
  retOk : Bool
  why : Nat
  retFail : Bool
  nested : Bool
  held : Bool
  warm : Bool
  cause : Nat
  fwFallback : Bool
  step : Nat
  code : Nat
  tstart : W16
  /-- A write of 0x5AF1 asked for a cold start (R92). -/
  coldAsked : Bool
  /-- The pending reset is of cold class, or a cold-class source asserted during it (R88). -/
  coldClass : Bool
  rollbackFailed : Bool
  /-- A watchdog trip whose WDT_TRIP event is still to be posted (R529). -/
  tripPending : Bool
  /-- The start watchdog runs (R108). -/
  startWdt : Bool
  /-- The reset has been entered and nothing but reset sources has happened since: they assert together (R88). -/
  together : Bool
  /-- A memory fault of the pillar SRAM ended the start: no event is recorded and none is read (R614). -/
  noLog : Bool
  deriving DecidableEq, Repr

/-! ### The pair (R319-R355) -/

/-- A frame waiting to be sent over the Tchias link (R323).
DESIGN CHOICE, log entry 97. -/
inductive TxFrame where
  | hello
  | heartbeat
  | delta (last : Bool) (recs : List (Nat × W36)) (trailer : Option Trailer)
  | resync (start : W32) (recs : List W36)
  | lag (first : W32)
  | hand (tok : HandToken)
  | confirm (claim : W32) (dseq : W32)
  | abort (reason : Byte)
  | fault (cls : Byte) (task : Byte) (code : W16)
  | resetReq
  | swapReq (origin : Byte)
  deriving DecidableEq, Repr

/-- A Tchias frame as sent: its sequence number with its content, and its bytes (R322). -/
structure SentFrame where
  seq : W32
  frame : TxFrame
  hello : Option HelloFrame
  heartbeat : Option HeartbeatFrame
  bytes : List Byte
  deriving DecidableEq, Repr

/-- Mirror state codes of PAIR.STAT.MIRROR (R324). -/
inductive Mirror where
  | none | resync | mirrored | lag
  deriving DecidableEq, Repr

/-- What a pending take is for (R337, R348, R351, R610). -/
inductive TakeFor where
  | active | alone | swap | takeover
  deriving DecidableEq, Repr

structure PairState where
  role : Role
  claim : W32
  /-- The own claim is to be withdrawn once the field die reports RELEASED or SAFE (R333). -/
  withdrawing : Bool
  lastClaim : W32
  /-- Highest epoch seen (R329). -/
  high : BitVec 31
  take : Option TakeFor
  /-- A take failed with POWER and is made again when the warning clears (R610). -/
  retake : Option TakeFor
  pclaim : W32
  prole : Role
  pmirror : Nat
  pflags : Nat
  cwOk : Bool
  cwClaim : W32
  cwSilent : Bool
  cwStage : Nat
  /-- The claim wire has been lost for 1 s (R558). -/
  cwLong : Bool
  present : Bool
  /-- Heartbeats missed in a row (R327). -/
  missing : Nat
  incompat : Bool
  swapRefused : Bool
  lagSeen : Bool
  mirror : Mirror
  /-- SEQ of the last HELLO received. -/
  lastHello : W32
  /-- SEQ of the next frame to send. -/
  txSeq : W32
  /-- SEQ of the last frame received; none before the first. -/
  rxSeq : Option W32
  txQueue : List TxFrame
  /-- The last frame sent. -/
  txLast : Option SentFrame
  /-- SEQ of the last DELTA frame sent or applied. -/
  dseq : W32
  /-- Bytes in the delta queue (R343). -/
  queueBytes : Nat
  /-- Records of a delta whose LAST frame has not arrived. -/
  rxDelta : List (Nat × W36)
  rxDeltaOk : Bool
  /-- Words still to send in a resync, none when none runs; and the words sent. -/
  resyncLeft : Option (List Nat)
  resyncSent : Nat
  resyncTotal : Nat
  /-- Mirrored state of the tasks (R341, R348). -/
  mtasks : Vector (Option Trailer) 16
  /-- HAND_OUT: HAND was sent and CONFIRM is awaited. -/
  handSent : Bool
  /-- A change of role whose first cycle start ends the HANDTIME measurement; unit time at its trigger. -/
  trigger : Option W72
  /-- Microseconds until the periodic swap of an ACTIVE part (R346). -/
  swapLeft : Option Nat
  handTime : Nat
  delay : Nat
  linkErr : Nat
  missed : Nat
  lags : Nat
  swaps : Nat
  swapRetry : Nat
  resyncPace : Nat
  /-- The unit time is to be set from the next HEARTBEAT (R342); true where a demotion calls for it. -/
  utDue : Option Bool
  /-- Root clocks by which a standby lengthens (1) or shortens (-1) each of its ticks (R342). -/
  slew : Int
  /-- Demoted under R338: STANDBY once the field die reports RELEASED. -/
  demoting : Bool
  /-- A refused periodic swap waits to be retried (R347). -/
  swapRetryDue : Bool
  deriving DecidableEq, Repr

/-! ### The Headframe (R356-R373) -/

/-- A frame of the frame stack (R367). -/
structure HfFrame where
  pc : BitVec 15
  n : Bool
  z : Bool
  c : Bool
  v : Bool
  p : Bool
  ie : Bool
  level : Nat
  bank : BitVec 3
  deriving DecidableEq, Repr

/-- An SVC request (R370). -/
structure SvcReq where
  code : W16
  laneB : Bool
  retry : Bool
  ord : Nat
  task : Task
  cycle : W32
  x : List W36
  deriving DecidableEq, Repr

/-- A lane-window latch half: the lane word it was made for and its value (R39). -/
structure WinHalf where
  laneB : Bool
  addr : Nat
  value : W16
  deriving DecidableEq, Repr

structure HfState where
  w : Vector W16 16
  n : Bool
  z : Bool
  c : Bool
  v : Bool
  pc : BitVec 15
  ie : Bool
  p : Bool
  /-- WAIT has halted fetching (R361); a double fault has stopped it (R368); a debug session has halted it (R572). -/
  waiting : Bool
  dead : Bool
  halted : Bool
  /-- Instruction RAM, local RAM (R32). -/
  imem : Mem 32
  ram : Mem 16
  level : Nat
  /-- Integrator mask of vectors 26-31: bit i masks vector 26 + i (R366). -/
  imask : BitVec 6
  /-- Pending SWI events, vectors 26-31. -/
  swi : BitVec 6
  frames : List HfFrame
  /-- HF.IEN_HI:HF.IEN_LO. -/
  ien : W32
  perm : Vector W16 4
  perm4 : W16
  locked : Bool
  intStop : Bool
  double : Bool
  faultValid : Bool
  faultPf : Bool
  faultVec : Nat
  faultPc : BitVec 15
  faultAddr : W16
  svcq : List SvcReq
  /-- Requests served, for R371: task, cycle number, ordinal. -/
  served : List (Task × W32 × Nat)
  /-- The integrator partition holds something (R357). -/
  intPart : Bool
  winCtl : W16
  winPartial : Bool
  winNotEdit : Bool
  winQfull : Bool
  winRange : Bool
  winSeg : Bool
  /-- Read latch: the lane word it holds (R37). -/
  winRead : Option (Bool × Nat × W36)
  win0 : Option WinHalf
  win1 : Option WinHalf
  bank : BitVec 3
  /-- Value that the last port-read command returned. -/
  portIn : W16
  /-- Conditions of vectors 7, 8, 19, 20 and 21 that no port holds: recovery end, role change, flash port done, engine done,
  store done (R366). -/
  noteAssay : Bool
  noteRole : Bool
  noteFlash : Bool
  noteCrypto : Bool
  notePillar : Bool
  /-- A single step is allowed to a halted Headframe (R572). -/
  stepOne : Bool
  deriving DecidableEq, Repr

/-! ### The field die and the die-to-die link (R21-R23, R374-R395) -/

/-- A test pulse under way (R384). -/
inductive Pulse where
  | dark | bright
  deriving DecidableEq, Repr

/-- One channel of the field die. Times are counted in input samples, one every 10 µs (R376). -/
structure ChanSt where
  cfg : FieldRec
  raw : Bool
  filt : Bool
  /-- Samples in a row that have shown a raw state other than the filtered one. -/
  filtCount : Nat
  /-- Samples in a row with the sense current below 0.5 mA, at or above it, and above 4.0 mA (R378). -/
  lowCount : Nat
  okCount : Nat
  highCount : Nat
  wireBreak : Bool
  senseHigh : Bool
  overload : Bool
  overtemp : Bool
  thermalLatch : Bool
  openOn : Bool
  openOff : Bool
  mismatch : Bool
  pulseFail : Bool
  /-- In thermal shutdown, and shutdowns with no driver-off state between (R386). -/
  thermal : Bool
  shutdowns : Nat
  latched : Bool
  /-- The commanded bit of the last accepted frame (R382). -/
  cmd : Bool
  /-- Driver state, and the sample numbers of its last change and last switch-on (R381, R383). -/
  driver : Bool
  changedAt : Option Nat
  onAt : Option Nat
  pulse : Option Pulse
  /-- The last slot's pulse passed or is not called for, so that a pull test may follow (R387). -/
  pulsePassed : Bool
  pull : Bool
  missed : Nat
  /-- Land reading of MODE 3: read-back state (R383). -/
  rb : Bool
  /-- FLD.CHn_I. -/
  current : W16
  deriving DecidableEq, Repr

/-- The field die. -/
structure FdState where
  ch : Vector ChanSt 32
  /-- Number of input samples taken. -/
  now : Nat
  stage : Stage
  silent : Bool
  released : Bool
  safeReq : Bool
  claim : W32
  cwValid : Bool
  cwClaim : W32
  cwSilent : Bool
  cwStage : Nat
  /-- SEQ of the last frame accepted from the logic die; none before the first. -/
  rxSeq : Option W16
  discarded : Nat
  txSeq : W16
  vfLow : Bool
  vfBelow : Nat
  vfAbove : Nat
  vfield : W16
  temp : Byte
  silenceMs : Byte
  pulsePer : Nat
  openMa : Nat
  /-- Firmware is loaded (R391 LOAD). -/
  loaded : Bool
  configured : Bool
  /-- FIELDTEST is current: the lands are switched away from their stages; and after it the outputs are held OFF until the next
  start (R569). -/
  loopback : Bool
  heldOff : Bool
  /-- When the silence episode in progress began, in the field die's own samples of 10 µs (R388). -/
  silentSince : Option Nat
  /-- The last claim wire frame and STATUS frame sent. -/
  cwSent : Option (BitVec 48)
  statusSent : Option (W16 × StatusPayload)
  /-- The last STATUS frame as it left, 36 bytes (R391, R392). -/
  statusBytes : List Byte
  /-- A STATUS frame is due: a frame was accepted, or a filtered state, a diagnostic or VF_LOW changed (R22, R393). -/
  statusDue : Bool
  /-- XBAR 1 structure frames (R391). -/
  frames : List FrameRec
  deriving DecidableEq, Repr

/-- A COMMAND frame that waits to be sent (R393). -/
structure WaitCmd where
  out : W32
  stamp : W32
  release : Bool
  deriving DecidableEq, Repr

/-- The logic die's side of the die-to-die link and the FLD ports. -/
structure FldState where
  waiting : Option WaitCmd
  /-- A HEARTBEAT frame is due (R22). -/
  hbDue : Bool
  /-- The last frame sent: its number and its content. -/
  sent : Option (W16 × LogicFrame)
  /-- The frames sent from the last content that a STATUS frame acknowledged on, oldest first (R22, R557). -/
  unacked : List (W16 × LogicFrame)
  /-- The bytes of the last frame sent, where R391 gives its layout. -/
  sentBytes : List Byte
  /-- The expert settings have changed: a CONFIG frame is due (R395). -/
  configDue : Bool
  txSeq : W16
  rxSeq : Option W16
  out : W32
  stamp : W32
  /-- RELEASE is set in the next command frame (R389). -/
  releaseNext : Bool
  /-- The first released commit after task start has not yet been sent (R389). -/
  firstRelease : Bool
  /-- Channels whose latch is released at the next command frame (R395). -/
  latchRel : W32
  inp : W32
  diag : W32
  rb : W32
  stage : Nat
  latched : Bool
  vfLow : Bool
  temp : Byte
  vfield : W16
  link : Bool
  errRx : Nat
  errFd : Nat
  silentCnt : Nat
  selftest : Bool
  fwOk : Bool
  pulsePer : Nat
  openMa : Nat
  deriving DecidableEq, Repr

/-! ### The message bus controllers (R396-R420) -/

/-- MBn.STAT.STATE (R419). -/
inductive BusPhase where
  | disabled | integrating | active | passive | busOff | recovering
  deriving DecidableEq, Repr

/-- One set of bit timing values (R400, R420): BRP, TSEG1, TSEG2, SJW as numbers. -/
structure BitTiming where
  brp : Nat
  tseg1 : Nat
  tseg2 : Nat
  sjw : Nat
  deriving DecidableEq, Repr

/-- Why a mailbox that is being sent will end if its frame fails (R407). -/
inductive MbEnd where
  | none | expired | aborted
  deriving DecidableEq, Repr

/-- One controller; its mailboxes, FIFO entries and filters lie in message RAM (R403). -/
structure MbState where
  phase : BusPhase
  listen : Bool
  ard : Bool
  ardIdx : Nat
  /-- Valid frames in a row with the pair under trial, each with its SOF stamp and the filter that decides it (R409, R412, R414). -/
  ardRun : List (CanFrame × W32 × Option (Nat × Bool))
  found : Bool
  rateIdx : Nat
  tec : Nat
  rec_ : Nat
  alone : Bool
  held : Bool
  mbxDenied : Bool
  rxOvr : Bool
  pxe : Bool
  timDenied : Bool
  /-- The state vector condition stands until MBn.ERRCODE is read (R419 IEN.STATE). -/
  stateChanged : Bool
  txDone : BitVec 64
  /-- Mailboxes whose lifetime runs, and how a mailbox being sent ends if its frame fails. -/
  lifeOn : BitVec 64
  ending : MbEnd
  /-- The mailbox being sent, its frame, and the bus time at its SOF. -/
  sending : Option (Fin 64 × CanFrame × W32)
  rxHead : Nat
  rxCount : Nat
  rxOvrCount : Nat
  noAck : Nat
  tdc : Byte
  /-- The secondary sample point after the last measurement, in protocol clocks (R402). -/
  ssp : Nat
  ien : BitVec 6
  timeHi : W16
  errData : Bool
  errCode : Nat
  nom : BitTiming
  dat : BitTiming
  /-- NBT0, NBT1, DBT0 and DBT1 as they stand: a write of NBT0 applies what was written to the other three (R420). -/
  nbt0 : W16
  newNbt1 : W16
  newDbt0 : W16
  newDbt1 : W16
  /-- One of the four was written since the start, and a written set is in use (R16, R401). -/
  nbtWritten : Bool
  timWritten : Bool
  /-- A timing set accepted during a frame; it takes effect after that frame (R401). -/
  newTiming : Option (BitTiming × BitTiming)
  tdcOff : Bool
  tdcOffset : Byte
  hold : Bool
  ardDwell : Nat
  deriving DecidableEq, Repr

/-! ### Ingress, egress, the host port and Obtum (R421-R444) -/

/-- One ingress block: its open set, last application and count (R424-R426, R444). -/
structure IngBlk where
  /-- Frames received of the open set, none when no set is open. -/
  open_ : Option (List Nat)
  /-- Unit time of the last application; for field blocks also of the last accepted status frame (R426). -/
  fresh : Option W72
  /-- Unit time of the last application (ING.BLK_AGE). -/
  last : Option W72
  count : W16
  valid : Bool
  deriving DecidableEq, Repr

/-- A complete block that waits to be applied (R425): its words and its validity. -/
structure ReadyBlk where
  block : Block
  words : List W36
  valid : Bool
  /-- The delivery list was full when it was first due (R279). -/
  heldNoted : Bool
  deriving DecidableEq, Repr

/-- One egress block: sequence counter, last release and count (R428, R444). -/
structure EgrBlk where
  seq : BitVec 7
  /-- SEQ of the last release. -/
  lastSeq : BitVec 7
  last : Option W72
  count : W16
  deriving DecidableEq, Repr

/-- A queued egress frame (R429, R430). -/
structure EgrFrame where
  block : Block
  frame : CanFrame
  deriving DecidableEq, Repr

structure IngState where
  blocks : List (Block × IngBlk)
  /-- The staging store of 32,768 words (R76). -/
  staging : Mem 36
  ready : List ReadyBlk
  egr : List (Block × EgrBlk)
  /-- Egress queues of the four buses, and the block that each egress mailbox holds (R430). -/
  queue : Vector (List EgrFrame) 4
  loaded : Vector (List (Fin 64 × Block)) 4
  sel : W16
  malformed : Nat
  orphan : Nat
  incomplete : Nat
  withdrawn : Nat
  recErr : Nat
  setMs : Nat
  obtGap : Nat
  deriving DecidableEq, Repr

structure HostState where
  /-- Mailboxes belled and awaiting firmware (HOST.PEND). -/
  pend : Byte
  done : Byte
  irqen : Byte
  win : W16
  winWrite : Bool
  winRange : Bool
  winSeg : Bool
  errCmd : Bool
  errBusyWr : Bool
  errBell : Bool
  errWinWr : Bool
  winOff : Bool
  xcount : Nat
  dummy : Nat
  /-- HOST_INT is low (R435). -/
  intLow : Bool
  /-- Bytes returned by the last read burst or read status (R433). -/
  lastRead : List Byte
  deriving DecidableEq, Repr

/-- A session of UPDATE_BEGIN (R441, R536). -/
structure UpdSession where
  owner : ObtChan
  kind : ImageKind
  slotB : Bool
  length : Nat
  /-- Next half expected: twice the block index plus the half. -/
  nextHalf : Nat
  half0 : List Byte
  crc0 : W32
  /-- WRAP as received, and the tag bytes that the stream has brought so far (R533, R536). -/
  wrap : List Byte
  tag : List Byte
  deriving DecidableEq, Repr

/-- A request being received on a service bus (R438). -/
structure BusReq where
  next : Nat
  bytes : List Byte
  deriving DecidableEq, Repr

structure ObtState where
  /-- The nonce last issued, with its age in 1/1,024 s, while unused (R440 NONCE). -/
  nonce : Option (List Byte × Nat)
  nonces : Nat
  sessions : List UpdSession
  /-- Requests in reception on the service buses; whole requests of every channel that await firmware, in order of arrival (R439). -/
  rx : Vector (Option BusReq) 4
  reqs : List (ObtChan × List Byte)
  /-- Response last given on each service bus (R438). -/
  resp : Vector (List Byte) 4
  /-- Segments of responses that no mailbox has taken yet (R438). -/
  segs : Vector (List (List Byte)) 4
  deriving DecidableEq, Repr

/-! ### Clocks, gates and seams (R445-R471) -/

inductive Gate where
  | open_ | closing | closed
  deriving DecidableEq, Repr

structure ClkState where
  lock : Bool
  forced : Bool
  divDenied : Bool
  refBad : Bool
  judging : Bool
  /-- Consecutive good windows of the judging under way. -/
  good : Nat
  /-- Reference in use: 0 XOSC, 1 REFCLK, 2 RCREF. -/
  ref : Nat
  /-- Reference judged or to be switched to. -/
  newRef : Nat
  /-- Reference sources enabled, bits as the codes of `ref` (R445). -/
  sources : BitVec 3
  /-- Consecutive windows of the reference watch outside the range (R451). -/
  badRun : Nat
  xcount : Nat
  windows : Nat
  cur : Vector Nat 10
  target : Vector Nat 10
  gate : Vector Gate 10
  rampStep : Nat
  judgeWin : Nat
  gateIdle : Nat
  gateDis : BitVec 10
  deriving DecidableEq, Repr

/-- A pulse seam (R467). -/
structure PSeam where
  busy : Bool
  pend : Bool
  ovr : Bool
  lost : Nat
  deriving DecidableEq, Repr

/-- A host port access that a seam holds (R463). -/
inductive HeldAccess where
  | read (addr : W32) (len : Nat)
  | status
  | write (addr : W32) (data : List Byte)
  | bell (mask : Byte)
  deriving DecidableEq, Repr

structure SeamState where
  stuck : Bool
  ovr : Bool
  stuckTarget : Nat
  stuckReq : Nat
  stuckCnt : Nat
  psel : Nat
  pulse : Vector PSeam 16
  timeout : Nat
  /-- Host accesses that wait for the stopped clock of their destination, oldest first (R463). -/
  held : List HeldAccess
  deriving DecidableEq, Repr

/-! ### Ageing and the health monitors (R472-R488) -/

/-- What a margin plan leaves behind for the life prediction (R480): the slack of each lane as the plan began and as it ended. -/
structure PlanLog where
  startA : Nat
  startB : Nat
  endA : Nat
  endB : Nat
  ledger : Nat
  /-- Powered seconds, and the calendar day where TIME_VALID is 1. -/
  powered : Nat
  day : Option Nat
  deriving DecidableEq, Repr

/-- Where the margin plan of one lane stands (R477). -/
inductive PlanLane where
  | idle
  /-- A 5 mV step is due at the next commit boundary, down where the plan lowers the LDO. -/
  | stepDue (down : Bool)
  /-- The LDO has been stepped; the lane is to be measured again. -/
  | remeasure (down : Bool)
  /-- The divider step is due. -/
  | dividerDue
  | done
  deriving DecidableEq, Repr

structure AgeState where
  planRun : Bool
  noMargin : Bool
  lifeLow : Bool
  ledgerLost : Bool
  stepped : Bool
  ledger : BitVec 48
  acc : W32
  life : W16
  /-- Powered seconds since the last plan, and in all. -/
  planAge : Nat
  powered : Nat
  slsel : Nat
  canary : Vector W16 48
  ro : Vector W16 10
  /-- The canary and the ring-oscillator pair that are measured next (R473). -/
  canaryTurn : Fin 48
  roTurn : Island
  slackTarget : Nat
  slackMin : Nat
  planA : PlanLane
  planB : PlanLane
  /-- No plan has run since LEDGER_LOST was set: the next may lower the LDOs (R477). -/
  mayLower : Bool
  /-- The plan that runs 1 s after task start where LEDGER_LOST is set has yet to run (R476). -/
  lostDue : Bool
  /-- Slack gained by the LDO steps of each lane and their number (R480). -/
  gainA : Int
  stepsA : Nat
  gainB : Int
  stepsB : Nat
  /-- Slack of each lane as the plan under way began. -/
  startA : Nat
  startB : Nat
  /-- The last 180 plans, oldest first, and the plans run in all: the place in the PLAN_LOG ring. -/
  log : List PlanLog
  plans : Nat
  deriving DecidableEq, Repr

/-- Layout of a monitor point (R71, R483). -/
structure MonLayout where
  source : Nat
  arg : Nat
  log2 : Bool
  w : Nat
  o : Nat
  deriving DecidableEq, Repr

/-- What a monitor point has gathered (R481). -/
structure MonData where
  min : W32
  max : W32
  last : W32
  samples : W32
  bins : Vector W32 32
  deriving DecidableEq, Repr

structure HltState where
  layout : Vector MonLayout 32
  data : Vector MonData 32
  lim : Vector W32 32
  sel : Point
  buf : MonData
  above : W32
  layoutDenied : Bool
  ovr : Vector W16 16
  xsrc : W16
  xwidthLo : W16
  /-- The new O as last written; a write applies the layout (R486). -/
  xwidthHi : W16
  deriving DecidableEq, Repr

/-! ### The pillar store and the backup domain (R489-R513) -/

/-- A gather buffer: the page loaded, the offset in bytes and the 64 bytes (R492). -/
structure Gather where
  page : Nat
  off : Nat
  data : Vector Byte 64
  deriving DecidableEq, Repr

/-- A shadow bank: sequence number of its marker while the marker is valid, the store count that the marker keeps, and the
copy (R496). -/
structure Bank where
  seq : Option W32
  count : W32
  /-- A store began in the bank and has not written its marker (R496). -/
  began : Bool
  /-- The CRC of the copy holds (R498). -/
  copyOk : Bool
  content : Mem 8
  deriving DecidableEq, Repr

/-- How far a store has come (R496, R497): triggered and waiting for its retain copy, or copying into a bank. -/
inductive StoreState where
  | none
  | copyDue
  | storing (bank1 : Bool) (snapshot : Mem 8)
  deriving DecidableEq, Repr

structure PilState where
  sram : Mem 8
  /-- Uncorrectable 8-byte groups (R491). -/
  bad : List Nat
  /-- Groups with a single-bit error that nothing has read yet (R491). -/
  single : List Nat
  hf : Gather
  ret : Gather
  rcd : Gather
  bank0 : Bank
  bank1 : Bank
  store : StoreState
  pfw : Bool
  /-- VHOLD has risen above the clearing threshold while a store runs: the warning clears at its end (R583). -/
  pfwClearDue : Bool
  recallOk : Bool
  refused : Bool
  uncorr : Bool
  corr : Bool
  torn : Bool
  reason : Nat
  corrCnt : Nat
  uncorrPg : Nat
  storeT : W16
  scrubMs : Nat
  deriving DecidableEq, Repr

/-- Calendar time (R504): year - 2000, month, day, hour, minute, second and 1/1,024 s. -/
structure Cal where
  year : Nat
  month : Nat
  day : Nat
  hour : Nat
  minute : Nat
  second : Nat
  frac : Nat
  deriving DecidableEq, Repr

structure BkpState where
  cal : Cal
  /-- Oscillator cycles into the trim period of 8,000,000, and the steps trimmed so far in it (R505). -/
  osc : Nat
  trims : Nat
  timeValid : Bool
  timeLost : Bool
  dateErr : Bool
  calWrap : Bool
  alarm : Bool
  pwron : Bool
  pwronTo : Bool
  onVbat : Bool
  latch : Bool
  /-- The Headframe interface is locked; the domain runs on VBAT (R510). -/
  locked : Bool
  vbat : Bool
  setYm : W16
  setDh : W16
  setMs : W16
  almYm : W16
  almDh : W16
  almMs : W16
  /-- The instant armed last. -/
  armed : Cal
  almEn : Bool
  trim : BitVec 12
  capture : Cal
  bytes : Vector Byte 64
  deriving DecidableEq, Repr

/-! ### Fuses, flash, keys and the test access port (R531-R575) -/

/-- The fuse words of R574.
PRESUMED, log entry 48. -/
structure Fuses where
  word : Vector W32 44
  /-- X32_LOAD, which no fuse word of R574 holds. -/
  x32Load : Bool
  deriving DecidableEq, Repr

/-- A directory change requested and not yet done (R539, R540): the STATE that a slot of a kind takes, whether its GEN goes up, the HASH of
a slot that becomes VERIFIED, and whether the slot becomes ACTIVE. -/
structure DirChange where
  kind : ImageKind
  slotB : Bool
  state : Byte
  genUp : Bool
  hash : List Byte
  activate : Bool
  deriving DecidableEq, Repr

/-- A slot being erased or programmed (R533, R541): its kind, the slot and the block concerned. -/
structure SlotOp where
  kind : ImageKind
  slotB : Bool
  block : Nat
  deriving DecidableEq, Repr

/-- The XSP ports and what the boot ROM found (R531, R548). -/
structure XspState where
  /-- Size in MiB of the device discovered on a port, 0 for none (R531). -/
  p0 : Nat
  p1 : Nat
  err : Bool
  /-- Slot in use since the start, per kind: true for B. -/
  inUse : Vector Bool 3
  dirTmo : Nat
  /-- Directory changes in the order requested; the first is being written into the other page (R539). -/
  dirq : List DirChange
  /-- The slot write under way. -/
  slotOp : Option SlotOp
  /-- This start found neither directory page valid (R539, R542). -/
  noDir : Bool
  deriving DecidableEq, Repr

structure SecState where
  busy : Bool
  /-- The fuse check of step 1 found the fuses sound (R107, R547 FUSE_OK). -/
  fuseOk : Bool
  /-- Per kind, the generation noted by the UPDATE_VERIFY that set VMARK (R540). -/
  vmark : Vector (Option W32) 3
  failValid : Bool
  failKind : Nat
  failCode : Nat
  failBlk : W32
  lgen : Vector W32 3
  /-- A debug session is open, and its SCOPE (R546). -/
  open_ : Bool
  scope : BitVec 3
  /-- Number of the key generation of the part; 0 before KEYGEN (R544, R574). -/
  keys : Nat
  /-- SERIAL of the part's certificate (R544). -/
  serial : W32
  /-- Version of the firmware that runs (R534). -/
  fwVersion : W32
  /-- Per kind, the image hash that this start verified, or the latched hash where it skipped (R100). -/
  verified : Vector (List Byte) 3
  deriving DecidableEq, Repr

/-- A debug response under check (R546, R571). -/
structure DbgResp where
  scope : Byte
  keysel : Byte
  pubkey : List Byte
  sig : List Byte
  deriving DecidableEq, Repr

structure TapState where
  ir : Byte
  /-- What the last Capture-IR loaded into the shift stage, 0b0000_0001, and the bypass register (R563). -/
  irShift : Byte
  bypass : Bool
  /-- The identification register (R565). -/
  ident : W32
  /-- The boundary register: the cells shifted in, which an instruction that drives pins applies, and the levels last sampled (R563, R567). -/
  boundary : BitVec 164
  sampled : BitVec 164
  /-- DRIVE of the field loopback register (R570), and what the last Capture-DR under FIELDTEST loaded. -/
  drive : BitVec 34
  loop : BitVec 70
  refused : Bool
  prod : Bool
  /-- The current challenge and its age in 1/1,024 s (R571). -/
  nonce : Option (List Byte × Nat)
  nonces : Nat
  status : Nat
  checking : Option DbgResp
  /-- The last debug frame, bits [83:8] of the debug register: CMD, TARGET, ADDR; its DATA is `data` (R572). -/
  cmd : Byte
  target : BitVec 4
  addr : BitVec 24
  /-- DATA that a capture returns (R572). -/
  data : W36
  /-- The 174 bytes that the last Capture-DR under DBGAUTH loaded (R571). -/
  captured : List Byte
  deriving DecidableEq, Repr

/-- Rails that stand above their power-on threshold, and the PLL supply (R581). -/
structure SupState where
  core : Bool
  lin : Bool
  hold : Bool
  pllLow : Bool
  deriving DecidableEq, Repr

/-- The unit fault that made the part FAULTED: class, task, code (R554, R609). -/
structure UnitFault where
  cls : Nat
  task : Nat
  code : W16
  deriving DecidableEq, Repr

/-! ### The machine -/

/-- The state of one LZ-4816 part, with the flash devices on its flash ports.
DESIGN CHOICE, log entries 1, 122. -/
structure State where
  sys : SysState
  cht : ChtState
  clk : ClkState
  seam : SeamState
  seq : SeqState
  laneA : Lane
  laneB : Lane
  tram : TramState
  asy : AsyState
  tly : TlyState
  wdt : WdtState
  pair : PairState
  hf : HfState
  /-- Message RAM, 8 banks of 16,384 words (R33): bank m at 16384 m. -/
  msg : Mem 16
  fld : FldState
  fd : FdState
  mb : Vector MbState 4
  ing : IngState
  host : HostState
  obt : ObtState
  age : AgeState
  hlt : HltState
  pil : PilState
  bkp : BkpState
  evt : EvtState
  fuses : Fuses
  flash : Flash
  xsp : XspState
  sec : SecState
  tap : TapState
  sup : SupState
  unitFault : Option UnitFault
  /-- Number of free values taken so far: the model's own (the argument of the next free value). -/
  free : Nat
  /-- Commands that wait, first in, first out. -/
  pending : List Instr
  deriving DecidableEq, Repr

/-- Why the machine stops.
DEDUCED, log entry 44. -/
inductive Fault where
  /-- Raised by a debug READ_MEM or WRITE_MEM of an address that does not exist in the target's space: a lane word that R28 reserves,
  or a Headframe data address above 16 bits (R32). Safe: the model stops where the hardware may go on. -/
  | reservedAddress
  deriving DecidableEq, Repr

/-- Why a command has no meaning. -/
inductive Refusal where
  /-- Raised by an arm of `exec` whose command is not modelled. Safe: the model says nothing. -/
  | notModelled (mnemonic : String)
  deriving DecidableEq, Repr

/-! ### The state after reset

Every field at the value the manual states for reset (the Cold entry of its port, for ports). A field for which the manual
gives none holds the value that the assumption log names. -/

/-- Nominal divider of each working island (R24), in the order of R57. -/
def nominalDivs : Vector Nat 10 := #v[2, 2, 4, 4, 4, 5, 10, 20, 25, 40]

/-- Switch divider of each working island: eight times nominal, at most 64 (R448-R452). -/
def switchDivs : Vector Nat 10 := #v[16, 16, 32, 32, 32, 40, 64, 64, 64, 64]

def SysState.init : SysState where
  state := .starting
  phase := .released false
  env := none
  expertDenied := false
  retLost := false
  retOk := false
  why := 0
  retFail := false
  nested := false
  held := false
  warm := false
  cause := 0
  fwFallback := false
  step := 0
  code := 0
  tstart := 0
  coldAsked := false
  coldClass := true
  rollbackFailed := false
  tripPending := false
  startWdt := true
  together := false
  noLog := false

def ChtState.init : ChtState where
  charter := none
  shown := none
  refused := false
  slotB := false
  code := 0
  sect := 0
  offs := 0
  latchOk := false
  latchHash := []
  latchGen := 0

def ClkState.init : ClkState where
  lock := false
  forced := false
  divDenied := false
  refBad := false
  judging := false
  good := 0
  ref := 2
  newRef := 2
  sources := 4
  badRun := 0
  xcount := 0
  windows := 0
  cur := switchDivs
  target := switchDivs
  gate := Vector.replicate 10 .open_
  rampStep := 256
  judgeWin := 7
  gateIdle := 16
  gateDis := 0

def PSeam.init : PSeam where
  busy := false
  pend := false
  ovr := false
  lost := 0

def SeamState.init : SeamState where
  stuck := false
  ovr := false
  stuckTarget := 0
  stuckReq := 0
  stuckCnt := 0
  psel := 0
  pulse := Vector.replicate 16 PSeam.init
  timeout := 4096
  held := []

def Ctx.init : Ctx where
  x := Vector.replicate 16 0
  rlr := false
  stack := []
  n := false
  z := false
  c := false
  v := false
  sel := Vector.replicate 8 0
  pc := 0
  atEnd := false

def Lane.init : Lane where
  mem := []
  bad := []
  single := []
  descPar := []
  cur := none
  ctx := Ctx.init
  count := 0
  cycles := Vector.replicate 16 none
  vein := []
  readSet := []
  journal := []
  preReq := false
  stall := .none
  stopped := false
  halted := false
  stepOne := false
  blocks := []
  ckptFold := BitVec.allOnes 128
  recq := 0
  ldo := 20

def TaskSt.init : TaskSt where
  phase := .stopped
  number := 0
  sk := 0
  firstCycle := false
  firstWarm := false
  warmDue := false
  consec := 0
  ovrWarn := false
  overrun := false
  stopReq := false
  fbRun := 0
  fbCode := 0
  fbCount := 0
  hfFlag := 0
  replay := 0

def SeqState.init : SeqState where
  ut := 0
  running := false
  stamp := 0
  tasks := Vector.replicate 16 TaskSt.init
  delivery := []
  editHeld := false
  editNext := false
  parA := false
  parB := false
  fltValid := false
  fltDouble := false
  fltPass := 0
  fltTask := 0
  fltCode := 0
  fltOneLane := false
  fltLane := false
  fltPc := 0
  fltElem := 0
  fltCyc := 0

def TramDesc.init : TramDesc where
  srcOff := 0
  srcSel := 0
  srcRam := false
  srcLane := false
  srcSeg := 0
  dstOff := 0
  dstSel := 0
  dstRam := false
  irq := false
  count := 0
  first := 0
  clean := true

def TramSt.init : TramSt where
  busy := false
  fault := false
  done := false
  code := 0
  k := 0
  desc := TramDesc.init
  count := 0
  abortReq := false
  irqEn := false
  pace := 0

def TramState.init : TramState where
  ch := Vector.replicate 16 TramSt.init
  denied := false
  irq := 0
  last := 15

def AsyState.init : AsyState where
  perm := false
  recovery := false
  debugOut := false
  debug := false
  unpaired := false
  injOk := false
  injRan := false
  injFail := 0
  gate := false
  opened := false
  misValid := false
  misTripA := false
  misTripB := false
  misTask := 0
  misCode := 0
  misCyc := 0
  misN := 0
  transients := 0
  sigA := 0
  sigB := 0
  agreed := 0
  holds := 0
  catchup := 500
  leadlim := 64
  pend := []
  effects := []
  exc := none
  rollback := none
  reopened := []

def TallySt.init : TallySt where
  checkIns := 0
  dupRaised := false
  tokens := []
  dupCount := 0
  missCount := 0
  seqCount := 0

def TlyState.init : TlyState where
  task := Vector.replicate 16 TallySt.init
  dup := 0
  miss := 0
  seq := 0
  firstValid := false
  firstKind := 0
  firstTask := 0
  firstReaction := 0
  firstCyc := 0
  firstPos := 0
  firstGot := 0
  tokenEn := 0

def WdtState.init : WdtState where
  armed := false
  stopped := false
  held := false
  count := 0
  prewarn := false
  trip := 0
  last := 0
  land := 0
  served := 0
  preMs := 0

def EvtState.init : EvtState where
  ready := false
  queue := []
  seq := 0
  lost := 0
  clears := 0
  suppressed := 0
  count := 0
  full := false
  qovr := false
  postDenied := false
  summary := false
  adopted := false
  windows := []
  rsel := 0
  rdata := []
  pcode := 0
  psev := 0
  ppar := Vector.replicate 6 0
  defK := 64
  defW := 10

def PairState.init : PairState where
  role := .negotiate
  claim := 0
  withdrawing := false
  lastClaim := 0
  high := 0
  take := none
  retake := none
  pclaim := 0
  prole := .negotiate
  pmirror := 0
  pflags := 0
  cwOk := false
  cwClaim := 0
  cwSilent := false
  cwStage := 0
  cwLong := false
  present := false
  missing := 0
  incompat := false
  swapRefused := false
  lagSeen := false
  mirror := .none
  lastHello := 0
  txSeq := 0
  rxSeq := none
  txQueue := []
  txLast := none
  dseq := 0
  queueBytes := 0
  rxDelta := []
  rxDeltaOk := true
  resyncLeft := none
  resyncSent := 0
  resyncTotal := 0
  mtasks := Vector.replicate 16 none
  handSent := false
  trigger := none
  swapLeft := none
  handTime := 0
  delay := 0
  linkErr := 0
  missed := 0
  lags := 0
  swaps := 0
  swapRetry := 60
  resyncPace := 16
  utDue := none
  slew := 0
  demoting := false
  swapRetryDue := false

def HfState.init : HfState where
  w := Vector.replicate 16 0
  n := false
  z := false
  c := false
  v := false
  pc := 0
  ie := false
  p := false
  waiting := false
  dead := false
  halted := false
  imem := []
  ram := []
  level := 32
  imask := 0
  swi := 0
  frames := []
  ien := 0
  perm := Vector.replicate 4 0
  perm4 := 0x80
  locked := false
  intStop := false
  double := false
  faultValid := false
  faultPf := false
  faultVec := 0
  faultPc := 0
  faultAddr := 0
  svcq := []
  served := []
  intPart := false
  winCtl := 0
  winPartial := false
  winNotEdit := false
  winQfull := false
  winRange := false
  winSeg := false
  winRead := none
  win0 := none
  win1 := none
  bank := 0
  portIn := 0
  noteAssay := false
  noteRole := false
  noteFlash := false
  noteCrypto := false
  notePillar := false
  stepOne := false

/-- The FIELD record of a channel that no charter has set: MODE 0, unused (R65). -/
def FieldRec.init : FieldRec where
  mode := 0
  on := 0
  off := 0
  filter := 0
  wireBreak := false
  safeOn := false
  pullTest := false
  pulse := 0
  word := 0
  bitix := 0

def ChanSt.init : ChanSt where
  cfg := FieldRec.init
  raw := false
  filt := false
  filtCount := 0
  lowCount := 0
  okCount := 0
  highCount := 0
  wireBreak := false
  senseHigh := false
  overload := false
  overtemp := false
  thermalLatch := false
  openOn := false
  openOff := false
  mismatch := false
  pulseFail := false
  thermal := false
  shutdowns := 0
  latched := false
  cmd := false
  driver := false
  changedAt := none
  onAt := none
  pulse := none
  pulsePassed := false
  pull := false
  missed := 0
  rb := false
  current := 0

def FdState.init : FdState where
  ch := Vector.replicate 32 ChanSt.init
  now := 0
  stage := .safe
  silent := true
  released := false
  safeReq := false
  claim := 0
  cwValid := false
  cwClaim := 0
  cwSilent := false
  cwStage := 0
  rxSeq := none
  discarded := 0
  txSeq := 0
  vfLow := false
  vfBelow := 0
  vfAbove := 0
  vfield := 0
  temp := 0
  silenceMs := 0
  pulsePer := 100
  openMa := 2
  loaded := false
  configured := false
  loopback := false
  heldOff := false
  silentSince := none
  cwSent := none
  statusSent := none
  statusBytes := []
  statusDue := false
  frames := []

def FldState.init : FldState where
  waiting := none
  hbDue := false
  sent := none
  unacked := []
  sentBytes := []
  configDue := false
  txSeq := 0
  rxSeq := none
  out := 0
  stamp := 0
  releaseNext := false
  firstRelease := false
  latchRel := 0
  inp := 0
  diag := 0
  rb := 0
  stage := 0
  latched := false
  vfLow := false
  temp := 0
  vfield := 0
  link := false
  errRx := 0
  errFd := 0
  silentCnt := 0
  selftest := false
  fwOk := false
  pulsePer := 100
  openMa := 2

def BitTiming.init : BitTiming where
  brp := 0
  tseg1 := 0
  tseg2 := 0
  sjw := 0

def MbState.init : MbState where
  phase := .disabled
  listen := false
  ard := false
  ardIdx := 0
  ardRun := []
  found := false
  rateIdx := 0
  tec := 0
  rec_ := 0
  alone := false
  held := false
  mbxDenied := false
  rxOvr := false
  pxe := false
  timDenied := false
  stateChanged := false
  txDone := 0
  lifeOn := 0
  ending := .none
  sending := none
  rxHead := 0
  rxCount := 0
  rxOvrCount := 0
  noAck := 0
  tdc := 0
  ssp := 0
  ien := 0
  timeHi := 0
  errData := false
  errCode := 0
  nom := BitTiming.init
  dat := BitTiming.init
  nbt0 := 0
  newNbt1 := 0
  newDbt0 := 0
  newDbt1 := 0
  nbtWritten := false
  timWritten := false
  newTiming := none
  tdcOff := false
  tdcOffset := 0
  hold := false
  ardDwell := 500

def IngState.init : IngState where
  blocks := []
  staging := []
  ready := []
  egr := []
  queue := Vector.replicate 4 []
  loaded := Vector.replicate 4 []
  sel := 0
  malformed := 0
  orphan := 0
  incomplete := 0
  withdrawn := 0
  recErr := 0
  setMs := 100
  obtGap := 100

def HostState.init : HostState where
  pend := 0
  done := 0
  irqen := 0
  win := 0
  winWrite := false
  winRange := false
  winSeg := false
  errCmd := false
  errBusyWr := false
  errBell := false
  errWinWr := false
  winOff := false
  xcount := 0
  dummy := 16
  intLow := false
  lastRead := []

def ObtState.init : ObtState where
  nonce := none
  nonces := 0
  sessions := []
  rx := Vector.replicate 4 none
  reqs := []
  resp := Vector.replicate 4 []
  segs := Vector.replicate 4 []

def AgeState.init : AgeState where
  planRun := false
  noMargin := false
  lifeLow := false
  ledgerLost := false
  stepped := false
  ledger := 0
  acc := 0
  life := 0xFFFF
  planAge := 0
  powered := 0
  slsel := 0
  canary := Vector.replicate 48 0
  ro := Vector.replicate 10 0
  canaryTurn := 0
  roTurn := 0
  slackTarget := 80
  slackMin := 40
  planA := .idle
  planB := .idle
  mayLower := false
  lostDue := false
  gainA := 0
  stepsA := 0
  gainB := 0
  stepsB := 0
  startA := 0
  startB := 0
  log := []
  plans := 0

/-- A layout of R483. -/
def MonLayout.of (source arg : Nat) (log2 : Bool) (w o : Nat) : MonLayout := ⟨source, arg, log2, w, o⟩

/-- The monitor points without a MONITORS section (R484). -/
def defaultLayout : Vector MonLayout 32 := #v[
  .of 1 0 true 1000 0, .of 1 1 true 1000 0, .of 1 2 true 1000 0, .of 1 3 true 1000 0,
  .of 1 4 true 1000 0, .of 1 5 true 1000 0, .of 1 6 true 1000 0, .of 1 7 true 1000 0,
  .of 2 0 true 1000 0, .of 2 1 true 1000 0, .of 2 2 true 1000 0, .of 2 3 true 1000 0,
  .of 3 0 true 16 0, .of 3 1 true 16 0, .of 4 5 false 10 0, .of 5 0 true 1 0,
  .of 6 0 false 32 0, .of 6 1 false 32 0, .of 6 2 false 32 0, .of 6 3 false 32 0,
  .of 6 4 false 32 0, .of 6 5 false 32 0, .of 6 6 false 32 0, .of 6 7 false 32 0,
  .of 7 0 false 5 155, .of 7 1 false 5 155, .of 7 2 false 5 155, .of 7 3 false 5 155,
  .of 7 7 false 50 55, .of 7 9 false 1000 10, .of 8 0 false 10 0, .of 8 1 false 10 0]

/-- A cleared monitor point (R481). -/
def MonData.init : MonData where
  min := 0xFFFFFFFF
  max := 0
  last := 0
  samples := 0
  bins := Vector.replicate 32 0

def HltState.init : HltState where
  layout := defaultLayout
  data := Vector.replicate 32 MonData.init
  lim := Vector.replicate 32 0
  sel := 0
  buf := MonData.init
  above := 0
  layoutDenied := false
  ovr := Vector.replicate 16 0
  xsrc := 0
  xwidthLo := 0
  xwidthHi := 0

def Gather.init : Gather where
  page := 0
  off := 0
  data := Vector.replicate 64 0

def Bank.init : Bank where
  seq := none
  count := 0
  began := false
  copyOk := false
  content := []

def PilState.init : PilState where
  sram := []
  bad := []
  single := []
  hf := Gather.init
  ret := Gather.init
  rcd := Gather.init
  bank0 := Bank.init
  bank1 := Bank.init
  store := .none
  pfw := false
  pfwClearDue := false
  recallOk := false
  refused := false
  uncorr := false
  corr := false
  torn := false
  reason := 0
  corrCnt := 0
  uncorrPg := 0
  storeT := 0
  scrubMs := 1000

/-- 2000-01-01 00:00:00.000 (R504). -/
def Cal.init : Cal where
  year := 0
  month := 1
  day := 1
  hour := 0
  minute := 0
  second := 0
  frac := 0

def BkpState.init : BkpState where
  cal := Cal.init
  osc := 0
  trims := 0
  timeValid := false
  timeLost := false
  dateErr := false
  calWrap := false
  alarm := false
  pwron := false
  pwronTo := false
  onVbat := false
  latch := true
  locked := false
  vbat := false
  setYm := 0
  setDh := 0
  setMs := 0
  almYm := 0
  almDh := 0
  almMs := 0
  armed := Cal.init
  almEn := false
  trim := 0
  capture := Cal.init
  bytes := Vector.replicate 64 0

/-- The fuses of a part as shipped: PART_GEN 1, REV 2, every other value 0, and the integrity values burnt. -/
def Fuses.init : Fuses where
  word := ((Vector.replicate 44 0).set 41 0x20001).set 42 0xE3ABA39A |>.set 43 0xCC9B5502
  x32Load := false

def FlashSlot.init : FlashSlot where
  hdr := none
  blocks := []

/-- No device on either flash port. -/
def Flash.init : Flash where
  p0 := none
  p1 := none
  dir0 := none
  dir1 := none
  fwA := FlashSlot.init
  fwB := FlashSlot.init
  chA := FlashSlot.init
  chB := FlashSlot.init
  prA := FlashSlot.init
  prB := FlashSlot.init

def XspState.init : XspState where
  p0 := 0
  p1 := 0
  err := false
  inUse := Vector.replicate 3 false
  dirTmo := 2000
  dirq := []
  slotOp := none
  noDir := false

def SecState.init : SecState where
  busy := false
  fuseOk := true
  vmark := Vector.replicate 3 none
  failValid := false
  failKind := 0
  failCode := 0
  failBlk := 0
  lgen := Vector.replicate 3 0
  open_ := false
  scope := 0
  keys := 1
  serial := 0
  fwVersion := 0
  verified := Vector.replicate 3 []

def TapState.init : TapState where
  ir := 0x01
  irShift := 0x01
  ident := 0x1481674F
  bypass := false
  boundary := 0
  sampled := 0
  drive := 0
  loop := 0
  refused := false
  prod := false
  nonce := none
  nonces := 0
  status := 0
  checking := none
  cmd := 0
  target := 0
  addr := 0
  data := 0
  captured := []

def SupState.init : SupState where
  core := true
  lin := true
  hold := true
  pllLow := false

/-- The part right after the reset release of a power-on (CAUSE 0), before its cold start: every field at its reset value,
every memory empty, no command waiting.
DESIGN CHOICE, log entries 3, 8; PRESUMED, log entry 48. -/
def State.reset : State where
  sys := SysState.init
  cht := ChtState.init
  clk := ClkState.init
  seam := SeamState.init
  seq := SeqState.init
  laneA := Lane.init
  laneB := Lane.init
  tram := TramState.init
  asy := AsyState.init
  tly := TlyState.init
  wdt := WdtState.init
  pair := PairState.init
  hf := HfState.init
  msg := []
  fld := FldState.init
  fd := FdState.init
  mb := Vector.replicate 4 MbState.init
  ing := IngState.init
  host := HostState.init
  obt := ObtState.init
  age := AgeState.init
  hlt := HltState.init
  pil := PilState.init
  bkp := BkpState.init
  evt := EvtState.init
  fuses := Fuses.init
  flash := Flash.init
  xsp := XspState.init
  sec := SecState.init
  tap := TapState.init
  sup := SupState.init
  unitFault := none
  free := 0
  pending := []

end Sys2Proof.Machine
end

