-- ==== Sys2Proof/Machine/Ops.lean ====
section
/-! DEFINITION. The named operations over memories, lanes and tasks, posting an event, and the unit fault reaction. -/

namespace Sys2Proof.Machine

open Sys2Proof

def State.modSys (s : State) (f : SysState → SysState) : State := { s with sys := f s.sys }

/-- SYS.STAT.STATE codes (R110). -/
def SysPhase.code : SysPhase → Nat
  | .starting => 0
  | .running => 1
  | .noCharter => 2
  | .clockHold => 3
  | .halt => 4
  | .bootRecovery => 5

/-- What a meaning answers. -/
abbrev Out := Host.Outcome State Fault Refusal

/-! ### Memories -/

/-- The word at an address; an address not listed reads 0.
DESIGN CHOICE, log entry 3. -/
def memGet {w : Nat} : Mem w → Nat → BitVec w
  | [], _ => 0#w
  | (k, v) :: r, a => if a = k then v else if a < k then 0#w else memGet r a

/-- A list with the word put before the first higher address. -/
def memPut {w : Nat} (a : Nat) (v : BitVec w) : Mem w → Mem w
  | [] => [(a, v)]
  | (k, u) :: r => if a = k then (a, v) :: r else if a < k then (a, v) :: (k, u) :: r else (k, u) :: memPut a v r

/-- A list without the word at an address. -/
def memErase {w : Nat} (a : Nat) : Mem w → Mem w
  | [] => []
  | (k, u) :: r => if a = k then r else if a < k then (k, u) :: r else (k, u) :: memErase a r

/-- The memory with one word written: a word of 0 is not listed.
DESIGN CHOICE, log entry 3. -/
def memSet {w : Nat} (m : Mem w) (a : Nat) (v : BitVec w) : Mem w :=
  if v = 0#w then memErase a m else memPut a v m

/-- The addresses of a memory rise strictly, starting above a bound. -/
def memRises {w : Nat} : Option Nat → Mem w → Bool
  | _, [] => true
  | lo, (k, v) :: r => (match lo with | none => true | some b => decide (b < k)) && v != 0#w && memRises (some k) r

/-- The canonical form: addresses strictly rising and no word equal to 0.
DESIGN CHOICE, log entry 3. -/
def Memory.wf {w : Nat} (m : Mem w) : Bool := memRises none m

/-- Several words written in order. -/
def memWrites {w : Nat} (m : Mem w) (ws : List (Nat × BitVec w)) : Mem w :=
  ws.foldl (fun acc p => memSet acc p.1 p.2) m

/-- Consecutive words. -/
def memWords {w : Nat} (m : Mem w) (a count : Nat) : List (BitVec w) :=
  (List.range count).map (fun i => memGet m (a + i))

/-- Consecutive words written. -/
def memWriteSeq {w : Nat} (m : Mem w) (a : Nat) (vs : List (BitVec w)) : Mem w :=
  memWrites m ((List.range vs.length).zipWith (fun i v => (a + i, v)) vs)

/-- Bytes of message RAM, two to a word, little-endian (R434). -/
def msgBytes (m : Mem 16) (byteAddr count : Nat) : List Byte :=
  (List.range count).map (fun i =>
    let a := byteAddr + i
    BitVec.ofNat 8 ((memGet m (a / 2)).toNat >>> (8 * (a % 2))))

/-- One byte of message RAM written. -/
def msgPutByte (m : Mem 16) (a : Nat) (b : Byte) : Mem 16 :=
  let w := (memGet m (a / 2)).toNat
  let v := if a % 2 = 0 then (w / 256) * 256 + b.toNat else b.toNat * 256 + w % 256
  memSet m (a / 2) (BitVec.ofNat 16 v)

/-- Bytes of message RAM written. -/
def msgPut (m : Mem 16) (byteAddr : Nat) (bs : List Byte) : Mem 16 :=
  ((List.range bs.length).zip bs).foldl (fun acc p => msgPutByte acc (byteAddr + p.1) p.2) m

/-- A packed word: 5 bytes (R421). -/
def packWord (v : W36) : List Byte := leBytes 5 v.toNat

/-- The words that packed bytes hold (R421). -/
def unpackWords (bs : List Byte) (count : Nat) : List W36 :=
  (List.range count).map (fun i => BitVec.ofNat 36 (leAt bs (5 * i) 5))

/-- No packed word of the bytes has a bit set in byte 4 [7:4] (R421, R423, R427). -/
def packedClean (bs : List Byte) (count : Nat) : Bool :=
  (List.range count).all (fun i => decide (leAt bs (5 * i) 5 < 2 ^ 36))

/-! ### Lanes, tasks and the charter -/

/-- A lane. -/
def State.lane (s : State) : LaneId → Lane
  | .a => s.laneA
  | .b => s.laneB

/-- The state with one lane changed. -/
def State.modLane (s : State) (l : LaneId) (f : Lane → Lane) : State :=
  match l with
  | .a => { s with laneA := f s.laneA }
  | .b => { s with laneB := f s.laneB }

/-- Both lanes changed. -/
def State.modLanes (s : State) (f : Lane → Lane) : State := { s with laneA := f s.laneA, laneB := f s.laneB }

/-- What the sequencer keeps for a task. -/
def State.task (s : State) (t : Task) : TaskSt := s.seq.tasks[t]

def State.modTask (s : State) (t : Task) (f : TaskSt → TaskSt) : State :=
  { s with seq := { s.seq with tasks := vecModify s.seq.tasks t f } }

/-- All sixteen tasks. -/
def allTasks : List Task := List.finRange 16

/-- The charter's record of a task (R60, R111). -/
def taskRec (s : State) (t : Task) : Option TaskRec := s.cht.charter.bind (fun c => c.tasks.find? (·.task == t))

/-- Split mode (R56); a part without a charter counts as paired. -/
def isSplit (s : State) : Bool := match s.cht.charter with | some c => c.head.split | none => false

/-- The lane that runs a task first: Lane A, and in split mode the lane its record names (R111). -/
def taskLane (s : State) (t : Task) : LaneId :=
  match taskRec s t with
  | some r => if isSplit s && r.laneB then .b else .a
  | none => .a

/-- A task runs on a lane (R111). -/
def runsOn (s : State) (t : Task) (l : LaneId) : Bool :=
  (taskRec s t).isSome && (if isSplit s then taskLane s t == l else true)

/-- Assay offset in retired instructions (R56, R274). -/
def assayOffset (s : State) : Nat := match s.cht.charter with | some c => c.head.offset | none => 0

/-- The lanes are compared: paired mode, and no debug session has unpaired the part (R299).
DESIGN CHOICE, log entry 18. -/
def isPaired (s : State) : Bool := !isSplit s && !s.asy.unpaired

/-- The charter has a PAIR section and selects paired mode, so the Tchias link is powered (R320). -/
def linkUp (s : State) : Bool :=
  match s.cht.charter with
  | some c => c.pair.isSome && !c.head.split
  | none => false

/-- UNIT of the charter, 0 without a PAIR section (R68). -/
def unitBit (s : State) : Nat :=
  match s.cht.charter.bind (·.pair) with
  | some p => p.unit % 2
  | none => 0

/-- UNIT of the part's claims: 0 for a part that is no part of a pair (R320, R328). -/
def claimUnit (s : State) : Nat := if linkUp s then unitBit s else 0

/-- The behaviour generation in effect (R3, R372): the charter's, or the part's own before a charter is applied. -/
def generation (s : State) : Nat :=
  match s.cht.charter with
  | some c => c.head.generation
  | none => bitsOf (s.fuses.word[41]).toNat 15 0

/-! ### Fuses (R574) -/

/-- Fuse word 40: OWNER_PROG [3:0], OWNER_REV [7:4], WDT_OPEN [10:8], START_REF [13:12], SPLIT_OK 16, DBG_OUT 17, DBG_LOCK 18. -/
def fuse40 (s : State) : Nat := (s.fuses.word[40]).toNat

def fuseSplitOk (s : State) : Bool := (fuse40 s).testBit 16
def fuseDbgOut (s : State) : Bool := (fuse40 s).testBit 17
def fuseDbgLock (s : State) : Bool := (fuse40 s).testBit 18

/-- PART_GEN and REV of fuse word 41. -/
def fusePartGen (s : State) : Nat := bitsOf (s.fuses.word[41]).toNat 15 0
def fuseRev (s : State) : Nat := bitsOf (s.fuses.word[41]).toNat 19 16

/-! ### Roles that run and release -/

/-- A reset is under way: entered and not yet released.
DEDUCED, log entry 77. -/
def resetUnderWay (s : State) : Bool :=
  match s.sys.phase with
  | .entered => true
  | .rolledBack => true
  | _ => false

/-- Later reset sources no longer assert together with those before.
DEDUCED, log entry 77. -/
def endTogether (s : State) : State := { s with sys := { s.sys with together := false } }

/-- The part runs tasks as far as its role goes (R319). -/
def roleRuns (r : Role) : Bool :=
  match r with
  | .alone | .active => true
  | _ => false

/-- A part releases egress only in these roles (R335). -/
def roleReleases (r : Role) : Bool :=
  match r with
  | .alone | .active | .handOut => true
  | _ => false

/-- The state with the next free value taken, and its number.
DESIGN CHOICE, log entry 9. -/
def State.takeFree (s : State) : State × Nat := ({ s with free := s.free + 1 }, s.free)

/-! ### Gates and pulse seams (R459, R460, R467, R468) -/

/-- A request reaches an island: its gate opens (R460). -/
def openGate (s : State) (i : Island) : State := { s with clk := { s.clk with gate := s.clk.gate.set i .open_ } }

/-- A round trip returns to idle; a pending event starts the next one at once. -/
def PSeam.returnTrip (p : PSeam) : PSeam := if p.busy then (if p.pend then { p with pend := false } else { p with busy := false }) else p

/-- `n` round trips return. -/
def PSeam.returns : Nat → PSeam → PSeam
  | 0, p => p
  | n + 1, p => PSeam.returns n p.returnTrip

/-- A pulse arrives (R467). -/
def PSeam.pulse (p : PSeam) : PSeam :=
  if !p.busy then { p with busy := true }
  else if !p.pend then { p with pend := true }
  else { p with ovr := true, lost := min 255 (p.lost + 1) }

/-- A pulse enters a seam after `returned` of its round trips have returned; every pulse seam ends in HEADFRAME, whose gate it opens
(R460, R467, R468). -/
def enterSeam (s : State) (i : Fin 16) (returned : Nat) : State :=
  let p := PSeam.returns returned (s.seam.pulse[i])
  openGate { s with seam := { s.seam with pulse := s.seam.pulse.set i p.pulse, ovr := s.seam.ovr || (p.busy && p.pend) } } 5

/-- The source block notifies the Headframe of a fact through its seam (R468).
DESIGN CHOICE, log entry 122. -/
def notifySeam (s : State) (i : Fin 16) : State := enterSeam s i 0

/-- The round trips of the seams from WDT_RC and BACKUP (slow), or of the others, have returned, with those that were pending; a stopped
root holds them (R463, R467).
DESIGN CHOICE, log entry 122. -/
def returnSeams (s : State) (slow : Bool) : State :=
  if s.clk.lock then
    { s with seam := { s.seam with pulse := Vector.ofFn (fun i : Fin 16 =>
      let p := s.seam.pulse[i]
      if decide (i.val < 2) == slow then { p with busy := false, pend := false } else p) } }
  else s

/-! ### Pages of the pillar SRAM (R489-R494, R517) -/

/-- Bytes of the pillar SRAM. -/
def pilBytes (s : State) (a count : Nat) : List Byte := memWords s.pil.sram a count

/-- The bytes of the groups that the event recorder owns, from its own counters (R517, R528). -/
def recorderByte (s : State) (a : Nat) : Option Byte :=
  if 0x10 ≤ a ∧ a < 0x18 then (leBytes 8 s.evt.seq.toNat)[a - 0x10]?
  else if 0x18 ≤ a ∧ a < 0x20 then (leBytes 8 s.evt.lost.toNat)[a - 0x18]?
  else if 0x120 ≤ a ∧ a < 0x200 then
    some ((leBytes 8 s.evt.clears.toNat ++ leBytes 4 s.evt.suppressed.toNat).getD (a - 0x120) 0)
  else none

/-- A page written in one indivisible step with its check bits, the recorder's groups from its own counters (R493, R517). -/
def writePage (s : State) (page : Nat) (data : List Byte) : State :=
  let base := 64 * page
  let bytes := (List.range 64).map (fun i => match recorderByte s (base + i) with | some b => b | none => data.getD i 0)
  { s with pil := { s.pil with
    sram := memWriteSeq s.pil.sram base bytes
    bad := s.pil.bad.filter (fun g => g / 8 != page)
    single := s.pil.single.filter (fun g => g / 8 != page) } }

/-- A refused commit: REFUSED, REASON and vector 21 (R494). -/
def refuseCommit (s : State) (reason : Nat) : State :=
  notifySeam { s with pil := { s.pil with refused := true, reason := reason } } 3

/-- The recorder commits a page of the system area for its own groups; the power-fail warning refuses it (R494, R517, R518). -/
def recorderCommit (s : State) (page : Nat) : State :=
  if s.pil.pfw then refuseCommit s 1 else writePage s page (pilBytes s (64 * page) 64)

/-- The recorder commits the pages of the system area that hold its groups (R517).
DESIGN CHOICE, log entry 92. -/
def commitCounters (s : State) : State := recorderCommit (recorderCommit s 0) 4

/-! ### Posting an event (R514-R524) -/

/-- Severity of a device event (R529). -/
def eventSeverity (code : Nat) : Nat :=
  if code ∈ [0x0006, 0x0405] then 4
  else if code ∈ [0x0005, 0x0102, 0x0104, 0x0201, 0x0203, 0x0302, 0x0307, 0x0308, 0x0401, 0x0403, 0x0404, 0x0501, 0x0502,
    0x0507, 0x0508, 0x0602, 0x0801, 0x0803, 0x0804, 0x0903] then 3
  else if code ∈ [0x0001, 0x0202, 0x0303, 0x0304, 0x0504, 0x0506, 0x0603, 0x0704, 0x0705, 0x0F01, 0x0F02] then 1
  else if code ∈ [0x0802, 0x0902] then 0
  else 2

/-- Codes that no rate limit touches (R523). -/
def unlimitedCodes : List Nat := [0x0001, 0x0006, 0x0304, 0x0804, 0x0F01, 0x0F02]

/-- TIME of a record (R514): 48 bits of calendar time. -/
def calStamp (c : Cal) : BitVec 48 :=
  BitVec.ofNat 48 (c.frac * 1000 / 1024 + c.second * 2 ^ 10 + c.minute * 2 ^ 16 + c.hour * 2 ^ 22 + c.day * 2 ^ 27
    + c.month * 2 ^ 32 + c.year * 2 ^ 36)

/-- An event put into the input queue: TIME, UTIME and SEQ are fixed here (R516). A full queue loses it. -/
def enqueueEvent (s : State) (code sev source : Nat) (param : List Byte) : State :=
  if s.evt.queue.length ≥ 64 then
    { s with evt := { s.evt with lost := s.evt.lost + 1, qovr := true } }
  else
    let item : EvItem := {
      time := calStamp s.bkp.cal
      seq := s.evt.seq + BitVec.ofNat 32 s.evt.queue.length
      code := BitVec.ofNat 16 code
      source := BitVec.ofNat 8 source
      flags := BitVec.ofNat 8 (sev % 8 + 8 * bit s.bkp.timeValid)
      utime := BitVec.ofNat 32 s.seq.ut.toNat
      param := (param ++ List.replicate 12 0).take 12
      awaits := none }
    { s with evt := { s.evt with queue := s.evt.queue ++ [item] } }

/-- The EVENTS record of a code, and so its own window (R521). -/
def ownWindow (s : State) (code : Nat) : Option EvtRec :=
  s.cht.charter.bind (fun c => c.events.find? (fun r => r.code == code))

/-- The key of the window of a code: its own, or the default window (R521). -/
def windowKey (s : State) (code : Nat) : Option W16 := (ownWindow s code).map (fun r => BitVec.ofNat 16 r.code)

/-- What the rate limit does with a posting (R521-R523): the recorder's state, and whether the posting is let through. -/
def rateLimit (s : State) (code : Nat) : EvtState × Bool :=
  if code ∈ unlimitedCodes then (s.evt, true)
  else
    let own := ownWindow s code
    let key := windowKey s code
    let k := match own with | some r => r.k | none => s.evt.defK
    let w := match own with | some r => r.w | none => s.evt.defW
    match s.evt.windows.find? (fun x => x.code == key) with
    | none =>
      ({ s.evt with windows := s.evt.windows ++ [⟨key, none, k, w, s.seq.ut + BitVec.ofNat 72 (w * 1000000), 1, 0⟩] }, true)
    | some x =>
      let pass := x.posted < x.k
      let x' := if pass then { x with posted := x.posted + 1 }
        else { x with suppressed := x.suppressed + 1,
                      firstSupp := match x.firstSupp with | none => some (BitVec.ofNat 16 code) | some c => some c }
      ({ s.evt with windows := s.evt.windows.map (fun y => if y.code == key then x' else y) }, pass)

/-- One event counted as lost with a full log: EVT_LOST is committed (R518, R524).
DESIGN CHOICE, log entry 92. -/
def loseEvent (s : State) : State := recorderCommit { s with evt := { s.evt with lost := s.evt.lost + 1 } } 0

/-- The SUMMARY of a window; with a full log it counts as lost, and SUPPRESSED is committed by itself (R522, R529).
DESIGN CHOICE, log entries 13, 92. -/
def postSummary (s : State) (w : EvWindow) : State :=
  let code := match w.code with | some c => c | none => w.firstSupp.getD 0
  let param := leBytes 2 code.toNat ++ leBytes 2 w.k ++ leBytes 4 w.suppressed ++ leBytes 2 w.w ++ leBytes 2 (bit w.code.isNone)
  if s.evt.full then recorderCommit (loseEvent s) 4 else enqueueEvent s 0x0F01 1 0xC0 param

/-- The window of a key closes where it has been open for its W seconds (R521, R522).
DESIGN CHOICE, log entry 92. -/
def closeWindow (s : State) (key : Option W16) : State :=
  match s.evt.windows.find? (fun w => w.code == key) with
  | none => s
  | some w =>
    if w.closeAt.ule s.seq.ut then
      let s1 := { s with evt := { s.evt with
        windows := s.evt.windows.filter (fun x => x.code != key), suppressed := s.evt.suppressed + BitVec.ofNat 32 w.suppressed } }
      if w.suppressed = 0 then s1 else postSummary s1 w
    else s

/-- An event posted, under the rate limits; a window whose time has passed closes first, and with a full log the event only counts as lost
(R516, R521, R522, R524).
DESIGN CHOICE, log entry 92. -/
def postEvent (s : State) (code sev source : Nat) (param : List Byte) : State :=
  let s0 := closeWindow s (windowKey s code)
  let r := rateLimit s0 code
  let s1 := { s0 with evt := r.1 }
  if r.2 then
    if s1.evt.full then loseEvent s1
    else enqueueEvent s1 code sev source param
  else s1

/-- An event put in its place by ascending SOURCE, then CODE; none passes a SUMMARY, which comes before the posting that opens the next window
(R522). -/
def insertEvent (e : EvItem) : List EvItem → List EvItem
  | [] => [e]
  | x :: r =>
    if (x :: r).all (fun y => y.code != 0x0F01) && e.code != 0x0F01 &&
        decide (65536 * e.source.toNat + e.code.toNat < 65536 * x.source.toNat + x.code.toNat) then e :: x :: r
    else x :: insertEvent e r

/-- The events that one step `t` of `s` posts are posted in the same PERIPH clock: they stand by ascending SOURCE, then CODE (R516).
DESIGN CHOICE, log entry 123. -/
def inOneClock (s t : State) : State :=
  let n := s.evt.queue.length
  let new := t.evt.queue.drop n
  if new.length < 2 then t
  else
    let sorted := new.foldl (fun acc e => insertEvent e acc) []
    { t with evt := { t.evt with
      queue := t.evt.queue.take n ++ (sorted.zip new).map (fun p => { p.1 with seq := p.2.seq }) } }

/-- A device event of R529: a source block (in the order of R44) and its parameter bytes.
DESIGN CHOICE, log entry 13. -/
def postDev (s : State) (code block : Nat) (param : List Byte) : State :=
  postEvent s code (eventSeverity code) block param

/-- A device event about a task (R515, R529).
DESIGN CHOICE, log entry 13. -/
def postTask (s : State) (code : Nat) (t : Nat) (param : List Byte) : State :=
  postEvent s code (eventSeverity code) (0x40 + t % 16) param

/-! ### Roles, the link and the unit fault reaction (R319, R323, R554, R609) -/

/-- The part's role changed; a change stands as a condition of vector 8 (R366). -/
def setRole (s : State) (r : Role) : State :=
  if s.pair.role = r then s
  else notifySeam { s with pair := { s.pair with role := r }, hf := { s.hf with noteRole := true } } 11

/-- ROLE_CHANGE (R529): old role, new role, claim and cause. -/
def postRoleChange (s : State) (old new : Role) (cause : Nat) : State :=
  postDev s 0x0506 8 (leBytes 1 old.code ++ leBytes 1 new.code ++ leBytes 4 s.pair.claim.toNat ++ leBytes 1 cause)

/-- A frame queued for the partner, where the link is powered (R320, R323). -/
def queueFrame (s : State) (f : TxFrame) : State :=
  if linkUp s then { s with pair := { s.pair with txQueue := s.pair.txQueue ++ [f] } } else s

/-- Every output is held OFF until the charter settings arrive at step 9 of a start (R96, R569).
DEDUCED, log entry 78. -/
def holdOff (d : FdState) : FdState :=
  { d with heldOff := true, ch := d.ch.map (fun x => { x with
      driver := false, changedAt := if x.driver then some d.now else x.changedAt, pulse := none, pull := false }) }

/-- The instruction register leaves FIELDTEST: every output land is OFF until the next start (R569).
DEDUCED, log entry 47. -/
def leaveLoopback (d : FdState) : FdState := if d.loopback then { holdOff d with loopback := false } else d

/-- The part enters the running state or takes a claim: a boundary-scan instruction that drives pins is forced to BYPASS (R566). -/
def forceBypass (s : State) : State :=
  if s.tap.ir ∈ [0x00#8, 0x03#8, 0x04#8, 0x20#8] then
    { s with tap := { s.tap with ir := 0xFF, refused := true }, fd := leaveLoopback s.fd }
  else s

/-- A command frame is due: it carries the current content when it is sent (R390, R393). -/
def dueCommand (s : State) : State :=
  { s with fld := { s.fld with waiting := some (match s.fld.waiting with | some w => w | none => ⟨s.fld.out, s.fld.stamp, false⟩) } }

/-- The unit fault reaction (R554, R609): the lanes stop, the release gate is blocked, the part is FAULTED, SAFE_REQ goes to the
field die, FAULT to the partner (after ABORT, where a swap meets the fault before the standby's take, R350), the claim is withdrawn once the field
die is SAFE, and UNIT_FAULT is recorded. A second fault at a part that is already FAULTED changes nothing but its event (R560). -/
def unitFault (s : State) (cls task code : Nat) : State :=
  let s0 := postDev s 0x0006 0 (leBytes 1 cls ++ leBytes 1 task ++ leBytes 2 code)
  if s.pair.role = .faulted then s0
  else
    let s1 := if s.pair.role = .handIn ∨ (s.pair.role = .standby ∧ s.pair.prole = .handOut) then queueFrame s0 (.abort 4) else s0
    let s2 := queueFrame s1 (.fault (BitVec.ofNat 8 cls) (BitVec.ofNat 8 task) (BitVec.ofNat 16 code))
    let s3 := setRole s2 .faulted
    let s4 := s3.modLanes (fun l => { l with stopped := true })
    dueCommand { s4 with
      asy := { s4.asy with gate := false, opened := false }
      pair := { s4.pair with
        withdrawing := true, demoting := false, take := none, retake := none, handSent := false, resyncLeft := none, trigger := none }
      unitFault := some ⟨cls, task, BitVec.ofNat 16 code⟩ }

/-- A detected fault that is a unit fault of its class. R609 gives no CODE for it.
DEDUCED, log entry 105. -/
def detectedFault (s : State) (cls : Nat) : State :=
  if s.pair.role = .faulted then s
  else
    let (s1, n) := s.takeFree
    unitFault s1 cls 0xFF (Config.freeCode n).toNat

/-- The part hands over (R295, R350).
DEDUCED, log entry 105. -/
def handsOver (s : State) : Bool := s.pair.role == .handOut || s.pair.role == .handIn

/-- A fault that R553 lists as detected: while a recovery lasts (R295), or at a part that hands over (R350, R560), it is a unit fault of its
class, else it only stands as recorded (R556).
DEDUCED, log entry 105. -/
def detected (s : State) (cls : Nat) : State := if s.asy.recovery || handsOver s then detectedFault s cls else s

/-- A fault of the Tchias link: the loss of the partner and a HAND that is not in sequence have their own course in a handover (R350).
DEDUCED, log entry 105. -/
def linkDetected (s : State) : State := if s.asy.recovery then detectedFault s 7 else s

/-! ### The watchdog's count (R311) -/

/-- WDT_PERIOD in ms and WDT_OPEN: the length of the period in ticks and the opening count (R311). -/
def wdtPeriod (s : State) : Nat := match s.cht.charter with | some c => 2000 * c.head.wdtPeriod | none => 0
def wdtOpens (s : State) : Nat := wdtPeriod s * (bitsOf (fuse40 s) 10 8 + 1) / 8

/-- The count after a number of ticks, which stops short of the tick that would pass P - 1. -/
def wdtCount (s : State) (elapsed : Nat) : State :=
  if s.wdt.armed && !s.wdt.stopped then { s with wdt := { s.wdt with count := min (wdtPeriod s - 1) (s.wdt.count + elapsed) } } else s

end Sys2Proof.Machine
end

