-- ==== Sys2Proof/Machine/Journal.lean ====
section
/-! DEFINITION. The stope journal of one lane (R158-R161): the word content in place together with the records of what writes
and events overwrote. Records stand newest first; the value that follows a record is the `old` of the next newer record of its
word, or the word in place for the newest. -/

namespace Sys2Proof.Machine

open Sys2Proof

/-- A memory and its journal. -/
structure Store where
  mem : Mem 36
  recs : List JRec
  deriving DecidableEq, Repr

/-- The memory and journal of a lane. -/
def Lane.store (l : Lane) : Store := ⟨l.mem, l.journal⟩

/-- A lane with its memory and journal replaced. -/
def Lane.withStore (l : Lane) (st : Store) : Lane := { l with mem := st.mem, journal := st.recs }

/-- A W record of an open cycle. -/
def JRec.openW (r : JRec) : Bool := r.isW && r.stamp.isNone

/-- A W record of the open cycle of a task. -/
def JRec.ownOpen (t : Task) (r : JRec) : Bool := r.openW && r.task == t

/-- The committed value of a word now: the value under the writes of all open cycles (R158 case 3). -/
def committedRecs (a : Nat) : List JRec → W36 → W36
  | [], v => v
  | r :: rs, v => if r.addr ≠ a then committedRecs a rs v else if r.stamp.isNone then committedRecs a rs r.old else v

/-- The committed value of a word before the event stamped `n`: every event stamped `n` or later is undone too (R127, R158). -/
def committedRecsAt (a n : Nat) : List JRec → W36 → W36
  | [], v => v
  | r :: rs, v =>
    if r.addr ≠ a then committedRecsAt a n rs v
    else match r.stamp with
      | none => committedRecsAt a n rs r.old
      | some k => if n ≤ k then committedRecsAt a n rs r.old else v

/-- The value that the newest record of a word meeting `p` left, with that record. -/
def followRecs (a : Nat) (p : JRec → Bool) : List JRec → W36 → Option (W36 × JRec)
  | [], _ => none
  | r :: rs, v => if r.addr ≠ a then followRecs a p rs v else if p r then some (v, r) else followRecs a p rs r.old

/-- The committed value of a word now. -/
def Store.committed (st : Store) (a : Nat) : W36 := committedRecs a st.recs (memGet st.mem a)

/-- The committed value of a word at the instant stamped `n`. -/
def Store.committedAt (st : Store) (a n : Nat) : W36 := committedRecsAt a n st.recs (memGet st.mem a)

/-- The value that the newest record of a word meeting `p` left, with that record. -/
def Store.following (st : Store) (a : Nat) (p : JRec → Bool) : Option (W36 × JRec) :=
  followRecs a p st.recs (memGet st.mem a)

/-- The records with `old` of the next newer record of the first record of `a` meeting `p` replaced. -/
def putOld (a : Nat) (p : JRec → Bool) (v : W36) : List JRec → List JRec
  | [] => []
  | r :: rs =>
    if r.addr = a then
      match rs.find? (fun x => x.addr == a) with
      | some n => if p n then { r with old := v } :: rs else r :: putOld a p v rs
      | none => r :: rs
    else r :: putOld a p v rs

/-- The place of a record in the order of events: a W record of an open cycle follows every event stamped before it was appended. -/
def JRec.age (r : JRec) : Nat := match r.stamp with | some n => 2 * n + 1 | none => 2 * r.born

/-- The tag of a word names the task's open cycle as its newest writer, and no E record or committed W record of the word is newer: a read
needs no reconstruction (R161). -/
def tagOwn (t : Task) : List JRec → Bool
  | [] => true
  | r :: rs => r.ownOpen t && rs.all (fun x => x.stamp.isNone || decide (x.age < r.age))

/-- The record that yields the value R158 requires, among the records of a word: the newest own one, else the oldest that hides the
committed value sought. -/
def yieldIdx (own hides : JRec → Bool) (rs : List JRec) : Option Nat :=
  match firstIdx own rs with
  | some i => some i
  | none => (firstIdx hides rs.reverse).map (fun j => rs.length - 1 - j)

/-- The records that a reconstructed read of a word walks (R161), from the newest to the one that yields its value, or all of them; `tk` is
the stamp of the reading cycle's Tk once it has passed. -/
def Store.walked (st : Store) (a : Nat) (t : Task) (own : JRec → Bool) (tk : Option Nat) : List JRec :=
  let rs := st.recs.filter (fun r => r.addr == a)
  let hides := fun r : JRec => match r.stamp, tk with | none, _ => true | some n, some k => decide (k ≤ n) | some _, none => false
  if tagOwn t rs then []
  else match (yieldIdx own hides rs).bind (fun i => (rs[i]?).map (fun r => (i, r))) with
    | some (i, r) =>
      (rs.take (i + 1)).filter (fun x => decide (r.age ≤ x.age)) ++ (rs.drop (i + 1)).filter (fun x => decide (r.age < x.age))
    | none => rs

/-- The value that follows the newest record of a word meeting `p` replaced (R159: later writes update the word in place). -/
def Store.setFollowing (st : Store) (a : Nat) (p : JRec → Bool) (v : W36) : Store :=
  match st.recs.find? (fun x => x.addr == a) with
  | none => st
  | some r => if p r then { st with mem := memSet st.mem a v } else { st with recs := putOld a p v st.recs }

/-- One record undone: the value it overwrote follows the record before it (R166, R175). -/
def Store.undoOne (st : Store) (a : Nat) (p : JRec → Bool) : Store :=
  match st.recs.find? (fun x => x.addr == a && p x) with
  | none => st
  | some r =>
    let st1 := st.setFollowing a p r.old
    { st1 with recs := st1.recs.eraseP (fun x => x.addr == a && p x) }

/-- Every record meeting `p` undone, newest first. -/
def Store.undo (st : Store) (p : JRec → Bool) : Store :=
  (st.recs.filter p).foldl (fun acc r => acc.undoOne r.addr p) st

/-- Records inserted under every open W record of their word: the newest place of the word's committed history. -/
def insertCommitted (a : Nat) (new : List JRec) (rs : List JRec) : List JRec :=
  match firstIdx (fun x => x.addr == a && x.stamp.isSome) rs with
  | some i => rs.take i ++ new ++ rs.drop i
  | none => rs ++ new

/-- The `old` of the lowest open W record of a word replaced; none where the word has no open W record. -/
def setLowestOpen (a : Nat) (v : W36) : List JRec → Option (List JRec)
  | [] => none
  | r :: rs =>
    if r.addr ≠ a then (setLowestOpen a v rs).map (r :: ·)
    else if r.stamp.isSome then none
    else match setLowestOpen a v rs with
      | some rs' => some (r :: rs')
      | none => some ({ r with old := v } :: rs)

/-- The committed value of a word replaced, under the writes of open cycles. -/
def Store.setCommitted (st : Store) (a : Nat) (v : W36) : Store :=
  match setLowestOpen a v st.recs with
  | some rs => { st with recs := rs }
  | none => { st with mem := memSet st.mem a v }

/-- An event of R126 changes a word; with `keep` it appends an E record of the value before it (R159). -/
def Store.event (st : Store) (a : Nat) (v : W36) (stamp : Nat) (keep : Bool) : Store :=
  let before := st.committed a
  let st1 := st.setCommitted a v
  if keep then
    { st1 with recs := insertCommitted a [⟨a, before, false, 0, 0, 0, some stamp, false, stamp⟩] st1.recs }
  else st1

/-- A write by an open cycle while the next event stamp is `born`: an own record's following value is updated, or a new W record appended
(R159). -/
def Store.write (st : Store) (t : Task) (cycle : W32) (inst a : Nat) (v : W36) (born : Nat) : Store :=
  let own := fun r : JRec => r.ownOpen t && r.inst == inst
  if st.recs.any (fun r => r.addr == a && own r) then st.setFollowing a own v
  else ⟨memSet st.mem a v, ⟨a, memGet st.mem a, true, t, cycle, inst, none, false, born⟩ :: st.recs⟩

/-- The words that the open cycle of a task has written, each once, in the order of their newest records. -/
def Store.written (st : Store) (t : Task) : List Nat :=
  ((st.recs.filter (JRec.ownOpen t)).map (·.addr)).eraseDups

/-- The value a task's open cycle holds for a word it wrote. -/
def Store.ownValue (st : Store) (t : Task) (a : Nat) : W36 :=
  match st.following a (JRec.ownOpen t) with
  | some p => p.1
  | none => st.committed a

/-- One word of a commit: the cycle's last value becomes the committed value, and its records become committed history
stamped at the commit (R131, R132, R160). -/
def Store.commitWord (st : Store) (t : Task) (cycle : W32) (stamp a : Nat) : Store :=
  let final := st.ownValue t a
  let own := st.recs.filter (fun r => r.addr == a && r.ownOpen t)
  let bare := st.undo (fun r => r.addr == a && r.ownOpen t)
  let before := bare.committed a
  let marked := own.map (fun r => { r with old := before, stamp := some stamp, cycle := cycle })
  let st1 := bare.setCommitted a final
  { st1 with recs := insertCommitted a marked st1.recs }

/-- All words of a commit. -/
def Store.commit (st : Store) (t : Task) (cycle : W32) (stamp : Nat) : Store :=
  (st.written t).foldl (fun acc a => acc.commitWord t cycle stamp a) st

end Sys2Proof.Machine
end

