-- ==== Sys2Proof/Machine/LaneCore.lean ====
section
/-! DEFINITION. The machinery that lane instructions share: descriptors and access checks (R242-R247), tracked reads and writes
(R155-R162), fallback (R175, R176), journal room (R177), task faults (R142, R239) and mismatches (R289-R291). -/

namespace Sys2Proof.Machine

open Sys2Proof

/-! ### Descriptors, programs and blocks -/

/-- Bit of a LANES field (R58). -/
def laneBit : LaneId → Nat
  | .a => 0
  | .b => 1

/-- The descriptor table of a lane (R242): the SEGMENTS records that name it. -/
def descTable (s : State) (l : LaneId) : List SegRec :=
  match s.cht.charter with
  | some c => c.segs.filter (fun d => d.lanes.testBit (laneBit l))
  | none => []

/-- The program record of a lane (R75). -/
def progRec (s : State) (l : LaneId) : Option ProgRec :=
  s.cht.charter.bind (fun c => c.programs.find? (fun p => p.lanes.testBit (laneBit l)))

/-- LENGTH of the lane's program, 0 for an unused lane (R75, R229). -/
def progLength (s : State) (l : LaneId) : Nat := match progRec s l with | some p => p.length | none => 0

/-- The selector of a SEG_ID (R243): VALID with the descriptor index, 0 where SEL is 0xFFFF. -/
def selectorOf (s : State) (l : LaneId) (segId : Nat) : BitVec 9 :=
  match firstIdx (fun d => d.segId == segId) (descTable s l) with
  | some i => BitVec.ofNat 9 (256 + i)
  | none => 0

/-- The selectors of a task at a cycle start (R243). -/
def taskSelectors (s : State) (l : LaneId) (t : Task) : Vector (BitVec 9) 8 :=
  match taskRec s t with
  | some r => Vector.ofFn (fun i : Fin 8 => selectorOf s l (r.sel.getD i.val 0xFFFF))
  | none => Vector.replicate 8 0

/-- The descriptor of a selector, with its index. -/
def descOf (s : State) (l : LaneId) (sel : BitVec 9) : Option (Nat × SegRec) :=
  if sel.getLsbD 8 then ((descTable s l)[sel.toNat % 256]?).map (fun d => (sel.toNat % 256, d)) else none

/-- A segment is tracked (R58). -/
def SegRec.tracked (d : SegRec) : Bool := d.flags.testBit 3

/-- A segment has the right asked for; no lane instruction or tram reaches CTX (R247), and none writes CODE (R246). -/
def SegRec.allows (d : SegRec) (rd wr : Bool) : Bool :=
  (!rd || d.flags.testBit 0) && (!wr || (d.flags.testBit 1 && d.kind != 5)) && d.kind != 8

/-- A word that does not read: in lane memory the check bits cover a double word (R30), in the image one word (R31). -/
def Lane.wordBad (l : Lane) (a : Nat) : Bool :=
  if a < 0x200000 then l.bad.any (fun x => x / 2 == a / 2 && decide (x < 0x200000)) else l.bad.contains a

/-- A word read corrects its single-bit error, which is written back (R194). -/
def Lane.corrects (l : Lane) (a : Nat) : Lane := { l with single := l.single.filter (· != a) }

/-- A word written: in lane memory the write is a read-modify-write of its double word and corrects the other half too (R30, R194). -/
def Lane.rewrites (l : Lane) (a : Nat) : Lane :=
  { l with single := l.single.filter (fun x => x != a && (decide (0x200000 ≤ a) || x / 2 != a / 2)) }

/-- Index of the rung block that holds an instruction address (R150). -/
def blockIdx (bs : List BlockEnt) (pc : Nat) : Nat := (bs.filter (fun b => decide (b.start ≤ pc))).length - 1

/-- The block that holds an address. -/
def blockAt (bs : List BlockEnt) (pc : Nat) : Option BlockEnt := bs[blockIdx bs pc]?

/-- An address lies in a fence block (R168). -/
def isFenceAt (bs : List BlockEnt) (pc : Nat) : Bool :=
  match blockAt bs pc with
  | some b => b.fence
  | none => false

/-- An address is the first instruction of a block (R152). -/
def isBlockStart (bs : List BlockEnt) (pc : Nat) : Bool := bs.any (fun b => b.start == pc)

/-! ### Why an instruction does not retire -/

inductive Stop where
  /-- A lane exception (R238), the element of a block instruction, and whether a descriptor parity error raised it. -/
  | exc (code elem : Nat) (par : Bool)
  /-- The cycle falls back with this code (R175). -/
  | fall (code : Nat)
  /-- The cycle was ended or fell back while the instruction ran; the state stands as given. -/
  | abandoned (s : State)
  /-- The instruction waits and has no effect (R231, R235). -/
  | stall (why : LStall)

/-- What an instruction part answers: a value with the state, or why it does not retire. -/
abbrev Run (α : Type) := Except Stop (α × State)

/-! ### Open cycles -/

/-- The open cycle of a task on a lane. -/
def Lane.cycle (l : Lane) (t : Task) : Option LCycle := l.cycles[t]

/-- A lane with a task's open cycle changed. -/
def Lane.modCycle (l : Lane) (t : Task) (f : LCycle → LCycle) : Lane :=
  { l with cycles := vecModify l.cycles t (fun c => c.map f) }

def State.cycle (s : State) (l : LaneId) (t : Task) : Option LCycle := (s.lane l).cycle t

def State.modCycle (s : State) (l : LaneId) (t : Task) (f : LCycle → LCycle) : State :=
  s.modLane l (fun x => x.modCycle t f)

/-- A dirty instance remains (R155). -/
def LCycle.anyDirty (c : LCycle) : Bool := c.insts.any (·.dirty)

/-- Tracking is on (R155); full re-execution has it off (R175). -/
def LCycle.tracking (c : LCycle) : Bool := (c.tkStamp.isNone || c.anyDirty) && c.pass != .full

/-- A task has work on the lane (R122): it is AHEAD, REPLAY or COMMIT. -/
def LCycle.hasWork (c : LCycle) : Bool := c.hold == .run || c.tkStamp.isSome

/-- The highest-priority task with work on a lane (R122). -/
def Lane.pick (l : Lane) : Option Task :=
  allTasks.find? (fun t => match l.cycle t with | some c => c.hasWork | none => false)

/-- The charter runs one program on both lanes, so Lane B follows Lane A through the delivery list (R272, R278). -/
def twoLanes (s : State) : Bool := !isSplit s

/-- A lane reports to the sequencer by itself: Lane A, and each lane in split mode. -/
def leads (s : State) (l : LaneId) : Bool := l == .a || isSplit s

/-- Pending commits count as open for E records and retirement (R292): the stamps of their Tk on a lane. -/
def pendingTk (s : State) (l : LaneId) : List Nat :=
  (s.asy.pend.filter (fun v => v.kind == .commit && (l == .a || v.sigB.isSome))).filterMap (·.tkStamp)

/-- The stamps of the Tk that have passed among the cycles that count as open on a lane. -/
def passedTk (s : State) (l : LaneId) : List Nat :=
  ((s.lane l).cycles.toList.filterMap (fun c => c.bind (·.tkStamp))) ++ pendingTk s l

/-! ### The read set and the vein table (R156, R157) -/

/-- Entries that the vein table holds (R154-R156). -/
def veinSize : Nat := 262144
/-- Entries of the instance table. -/
def instanceSize : Nat := 65536
/-- Records of the stope journal. -/
def journalSize : Nat := 65536

/-- The read set flushed to the vein table; none where the table has no room. -/
def Lane.flush (l : Lane) : Option Lane :=
  if l.vein.length + l.readSet.length ≤ veinSize then some { l with vein := l.vein ++ l.readSet, readSet := [] } else none

/-- A tracked read recorded against its instance (R155, R156): one entry for each word and instance, the earlier kept.
DESIGN CHOICE, log entry 15. -/
def recordRead (l : Lane) (t : Task) (inst a : Nat) (src : Option Nat) : Option Lane :=
  let same := fun v : Vein => v.task == t && v.inst == inst && v.addr == a
  if l.vein.any same || l.readSet.any same then some l
  else
    let l1 := { l with readSet := l.readSet ++ [⟨t, inst, a, src, l.count, false⟩] }
    if l1.readSet.length < 32 then some l1 else l1.flush

/-- Vein entries and read-set entries meeting a test removed. -/
def Lane.dropVeins (l : Lane) (p : Vein → Bool) : Lane :=
  { l with vein := l.vein.filter (fun v => !p v), readSet := l.readSet.filter (fun v => !p v) }

/-- An event that changed a word marks dirty the instances of open cycles before their Tk that read it with source base (R162). -/
def Lane.mark (l : Lane) (a : Nat) : Lane :=
  let hits := (l.vein ++ l.readSet).filter (fun v => v.addr == a && v.src.isNone)
  { l with cycles := Vector.ofFn (fun t : Fin 16 => (l.cycles[t]).map (fun c =>
      if c.tkStamp.isSome then c
      else
        let dirtied := fun (i : Nat) (n : Inst) =>
          if hits.any (fun v => v.task == t && v.inst == i) then { n with dirty := true } else n
        { c with insts := (List.range c.insts.length).zipWith dirtied c.insts })) }

/-! ### Ending a cycle (R142, R175, R239) -/

/-- The words that an undo of the records meeting `p` writes in place: those whose newest record is among them. -/
def Lane.undoWords (l : Lane) (p : JRec → Bool) : List Nat :=
  ((l.journal.filter p).map (·.addr)).eraseDups.filter (fun a =>
    match l.journal.find? (fun r => r.addr == a) with | some r => p r | none => false)

/-- The records of a lane meeting `p` undone (R166, R175, R293). A write in place is a read-modify-write of its double word (R30). -/
def Lane.undoWhere (l : Lane) (p : JRec → Bool) : Lane := ((l.undoWords p).foldl Lane.rewrites l).withStore (l.store.undo p)

/-- An undo reads a record with an uncorrectable error (R268). -/
def Lane.undoBad (l : Lane) (p : JRec → Bool) : Bool := l.journal.any (fun r => p r && r.err)

/-- The lane's records and entries of a task's open cycle undone and freed. -/
def Lane.undoCycle (l : Lane) (t : Task) : Lane := (l.undoWhere (JRec.ownOpen t)).dropVeins (fun v => v.task == t)

/-- A task's open cycle removed from a lane, which idles where it ran that task. -/
def Lane.dropCycle (l : Lane) (t : Task) : Lane :=
  let l1 := { l with cycles := l.cycles.set t none }
  if l1.cur = some t then { l1 with cur := none, stall := .none } else l1

/-- A cycle that is to be executed in full (R175 steps 1-3). -/
def LCycle.toFull (c : LCycle) : LCycle :=
  { c with insts := [], cur := 0, pass := .full, hold := .waitFull, fresh := false, saved := false, fwdHold := .waitFull,
           resumed := false, prevWrites := [], curWrites := [], truncated := false, svcOrd := 0, uw := [], shadow := [], moved := [] }

/-- A busy task-owned channel stops at its next element boundary with code ABORTED (R254). -/
def abortChannel (s : State) (t : Task) : State :=
  let ch := s.tram.ch[t]
  if ch.busy then { s with tram := { s.tram with ch := s.tram.ch.set t { ch with abortReq := true } } } else s

/-- A descriptor parity error is shown (R245). -/
def noteParity (s : State) (l : LaneId) : State :=
  match l with
  | .a => { s with seq := { s.seq with parA := true } }
  | .b => { s with seq := { s.seq with parB := true } }

/-- PASS of the fault report (R268). -/
def Pass.code : Pass → Nat
  | .first => 0
  | .replay => 1
  | .resumed => 1
  | .full => 2

/-- The fault report captures the first fault after VALID was last cleared (R269). -/
def faultReport (s : State) (double : Bool) (pass : Nat) (t : Task) (code : Nat) (oneLane : Option LaneId) (cycle : W32)
    (pc elem : Nat) : State :=
  if s.seq.fltValid then s
  else { s with seq := { s.seq with
    fltValid := true, fltDouble := double, fltPass := pass, fltTask := t.val, fltCode := BitVec.ofNat 8 code,
    fltOneLane := oneLane.isSome, fltLane := oneLane == some .b, fltPc := pc, fltElem := elem, fltCyc := cycle } }

/-- The number of a task's cycle as a lane knows it. -/
def cycleNumber (s : State) (l : LaneId) (t : Task) : W32 := match s.cycle l t with | some c => c.number | none => (s.task t).number

/-- A field of a task's record, 0 without one: BUDGET, MIN_GAP, FLOOR and OVR_LIMIT. -/
def taskNat (s : State) (t : Task) (f : TaskRec → Nat) : Nat := match taskRec s t with | some r => f r | none => 0

/-- Sk + BUDGET. -/
def budgetEnd (s : State) (t : Task) : W72 := (s.task t).sk + BitVec.ofNat 72 (taskNat s t (·.budget))

/-- The cycle of a task ends: the time by which its budget was passed is filled into its OVERRUN event (R141).
DESIGN CHOICE, log entry 17. -/
def fillOverrun (s : State) (t : Task) : State :=
  let time := (s.seq.ut - budgetEnd s t).toNat
  { s with evt := { s.evt with queue := s.evt.queue.map (fun e =>
    if e.awaits == some t then { e with param := e.param.take 6 ++ leBytes 4 time ++ leBytes 2 0, awaits := none } else e) } }

/-- The commits of Lane A that a fault of the task in Lane B voids: Lane B has not made them yet (R309). -/
def voidedCommits (s : State) (t : Task) : List Verdict :=
  s.asy.pend.filter (fun v => v.kind == .commit && v.task == t && v.sigB.isNone)

/-- The W records that those commits left in Lane A. -/
def voidedRecord (s : State) (t : Task) (r : JRec) : Bool :=
  r.isW && r.task == t && (match r.stamp with | some n => (voidedCommits s t).any (fun v => v.stamp == n) | none => false)

/-- Class of a task fault as a unit fault (R609). -/
def taskFaultClass (code pass : Nat) : Nat := if code = 0x22 ∨ (code = 0x08 ∧ pass = 3) then 4 else 1

/-- TASK_FAULT (R529). -/
def postTaskFault (s : State) (t : Task) (cycle : W32) (code pc : Nat) : State :=
  postTask s 0x0302 t.val (leBytes 1 t.val ++ leBytes 1 code ++ leBytes 4 cycle.toNat ++ leBytes 4 pc)

/-- A task fault of a cycle (R142, R239): the cycle ends without a commit, its W records are undone with those of the commits that Lane A made
of it alone (R309), and the task or the part is faulted. `one` is the lane that alone took it: the one lane of the task in split mode
(R269). A part unpaired by a debug session takes no unit fault from its lanes (R299), and at a part that is FAULTED a further fault changes
nothing but its events (R560). -/
def taskFault (s : State) (t : Task) (cycle : W32) (code : Nat) (double : Bool) (one : Option LaneId) (pass pc elem : Nat) : State :=
  inOneClock s (
    let cls := taskFaultClass code pass
    if s.pair.role = .faulted then unitFault (postTaskFault s t cycle code pc) cls t.val code
    else
      let s0 := faultReport s double pass t code (if isSplit s then some (taskLane s t) else one) cycle pc elem
      let s1 := fillOverrun (postTaskFault s0 t cycle code pc) t
      let undo := fun l : Lane => ((l.undoCycle t).undoWhere (voidedRecord s t)).dropCycle t
      let s2 := if isSplit s then s1.modLane (taskLane s t) undo else s1.modLanes undo
      let s3 := abortChannel { s2 with asy := { s2.asy with pend := s2.asy.pend.filter (fun v => !(voidedCommits s t).contains v) } } t
      if isSplit s then
        let s4 := s3.modTask t (fun k => { k with phase := .faulted })
        if double then unitFault s4 1 t.val code else s4
      else
        let s4 := s3.modTask t (fun k => { k with phase := .stopped })
        if s.asy.unpaired then s4 else unitFault s4 cls t.val code)

/-- A cycle falls back (R175, R176). Where an entry that the undo must read is uncorrectable, it is a task fault instead (R268). -/
def fallback (s : State) (l : LaneId) (t : Task) (code : Nat) : State :=
  if (s.lane l).undoBad (JRec.ownOpen t) then taskFault s t (cycleNumber s l t) 0x08 false (some l) 3 0 0
  else
    let s1 := s.modLane l (fun x => (x.undoCycle t).modCycle t LCycle.toFull)
    if leads s l then
      let k := s1.task t
      postTask (s1.modTask t (fun k => { k with fbRun := code, fbCount := sat16 k.fbCount 1 })) 0x0303 t.val
        (leBytes 1 t.val ++ leBytes 1 code ++ leBytes 4 k.number.toNat)
    else s1

/-! ### Room in the journal (R160, R177) -/

/-- A record may retire (R160, R292): no cycle that counts as open on the lane has a Tk at or before its stamp. -/
def retirable (s : State) (l : LaneId) (r : JRec) : Bool :=
  match r.stamp with
  | none => false
  | some n => (passedTk s l).all (fun k => decide (n < k)) &&
      s.asy.pend.all (fun v => !(v.kind == .commit && (l == .a || v.sigB.isSome) && r.isW && decide (v.stamp ≤ n)))

/-- The lowest-priority open cycle on a lane that meets a test. -/
def lowestCycle (s : State) (l : LaneId) (p : Task → LCycle → Bool) : Option Task :=
  allTasks.reverse.find? (fun t => match s.cycle l t with | some c => p t c | none => false)

/-- Room made for `need` records, step by step (R177); `who` is the cycle whose W records are needed, none for an E record. Where that cycle
itself falls back or faults, its records are needed no longer. -/
def makeRoom (need : Nat) : Nat → LaneId → Option Task → State → State
  | 0, _, _, s => s
  | fuel + 1, l, who, s =>
    if (s.lane l).journal.length + need ≤ journalSize then s
    else if (s.lane l).journal.any (retirable s l) then
      makeRoom need fuel l who (s.modLane l (fun x => { x with journal := x.journal.eraseP (retirable s l) }))
    else match lowestCycle s l (fun t c => c.tkStamp.isNone && (s.lane l).journal.any (JRec.ownOpen t)) with
      | some t => if who = some t then fallback s l t 3 else makeRoom need fuel l who (fallback s l t 4)
      | none =>
        let own := who.filter (fun t => match s.cycle l t with | some c => c.tkStamp.isSome && c.pass != .full | none => false)
        match own with
        | some t => fallback s l t 3
        | none =>
          match lowestCycle s l (fun _ c => c.tkStamp.isSome) with
          | some t =>
            let s1 := taskFault s t (cycleNumber s l t) 0x22 false none 3 0 0
            if who = some t then s1 else makeRoom need fuel l who s1
          | none => s

/-! ### Events of R126 in a lane -/

/-- An E record is needed (R159): a cycle that counts as open has passed its Tk, and the word holds no E record stamped at or after the
latest of those Tk. -/
def needsRecord (s : State) (l : LaneId) (a : Nat) : Bool :=
  match (passedTk s l).max? with
  | none => false
  | some latest => !(s.lane l).journal.any (fun r => r.addr == a && !r.isW && (match r.stamp with | some n => decide (latest ≤ n) | none => false))

/-- Cycles before their Tk whose vein entries for a word cannot be read when an event marks the word (R268): they suffer a task fault. -/
def markFaults (s : State) (l : LaneId) (a : Nat) : State :=
  let x := s.lane l
  let hit := fun (t : Task) => (x.vein ++ x.readSet).any (fun v => v.addr == a && v.err && v.task == t) &&
    (match s.cycle l t with | some c => c.tkStamp.isNone | none => false)
  (allTasks.filter hit).foldl (fun acc t => taskFault acc t (cycleNumber acc l t) 0x08 false (some l) 3 0 0) s

/-- One word changed by an event: instances are marked, history is kept, and the committed value becomes the new one. A word
that already holds the value is not changed.
DEDUCED, log entry 102. -/
def laneEvent (l : LaneId) (stamp : Nat) (s : State) (w : Nat × W36) : State :=
  if (s.lane l).store.committed w.1 = w.2 then s
  else
    let s0 := markFaults s l w.1
    let keep := needsRecord s0 l w.1
    let s1 := if keep then makeRoom 1 64 l none s0 else s0
    s1.modLane l (fun x => ((x.rewrites w.1).mark w.1).withStore (x.store.event w.1 w.2 stamp keep))

/-- An event's words enter a lane. -/
def laneEvents (l : LaneId) (stamp : Nat) (ws : List (Nat × W36)) (s : State) : State := ws.foldl (laneEvent l stamp) s

/-! ### Access checks (R191, R211, R239) -/

/-- The checks of one access to `span` consecutive words, in the order of R239; the descriptor's parity is checked as soon as the
selector names one. -/
def checkAccess (s : State) (l : LaneId) (sel : BitVec 9) (off : Nat) (rd wr : Bool) (align : Bool) (span : Nat) :
    Except Stop (Nat × SegRec) :=
  match descOf s l sel with
  | none => .error (.exc 0x04 0 false)
  | some (i, d) =>
    let a := d.base + off
    if (s.lane l).descPar.contains i then .error (.exc 0x08 0 true)
    else if d.limit < off + span then .error (.exc 0x05 0 false)
    else if !d.allows rd wr then .error (.exc 0x06 0 false)
    else if align && decide (a < 0x200000) && a % 2 == 1 then .error (.exc 0x07 0 false)
    else if (List.range span).any (fun i => (s.lane l).wordBad (a + i)) then .error (.exc 0x08 0 false)
    else .ok (a, d)

/-! ### Reads and writes of a cycle -/

/-- The latest value that instances up to `q` of a cycle wrote to an untracked word.
DESIGN CHOICE, log entry 14. -/
def LCycle.untracked (c : LCycle) (a q : Nat) : Option W36 :=
  (c.uw.foldl (fun (best : Option (Nat × W36)) e =>
    if e.1 = a ∧ e.2.1 ≤ q then
      match best with
      | some b => if b.1 ≤ e.2.1 then some e.2 else best
      | none => some e.2
    else best) none).map (·.2)

/-- A write of the cycle before the current point of its program order (R158 case 1). -/
def LCycle.wroteBefore (c : LCycle) (t : Task) (r : JRec) : Bool :=
  r.ownOpen t && (decide (r.inst < c.cur) || (r.inst == c.cur && (c.pass != .replay || c.curWrites.contains r.addr)))

/-- The value R158 gives to a cycle for a tracked word at the current point, with its source. -/
def trackedValue (x : Lane) (t : Task) (c : LCycle) (a : Nat) : W36 × Option Nat :=
  match x.store.following a (c.wroteBefore t) with
  | some (v, r) => (v, some r.inst)
  | none =>
    match c.tkStamp with
    | some n => (x.store.committedAt a n, none)
    | none => (x.store.committed a, none)

/-- A tracked read that must be reconstructed meets a record that cannot be read (R161, R268). -/
def walkFails (x : Lane) (t : Task) (c : LCycle) (a : Nat) : Bool := (x.store.walked a t (c.wroteBefore t) c.tkStamp).any (·.err)

/-- A word that a channel run of the cycle writes, before the TWAIT that finds the channel idle (R253).
DESIGN CHOICE, log entry 14. -/
def LCycle.inTransfer (c : LCycle) (a : Nat) : Bool := c.tramDst.any (fun p => decide (p.1 ≤ a) && decide (a < p.1 + p.2))

/-- The value of a word for a cycle, and its source in a tracked one: tracked words under R158; CODE as it stands; untracked words as the
cycle wrote them, and a free value where it has not (R130) or where a transfer of its own is still to be waited for (R253).
DESIGN CHOICE, log entry 14. -/
def valueAt (s : State) (l : LaneId) (t : Task) (c : LCycle) (d : SegRec) (a : Nat) : Run (W36 × Option Nat) :=
  if d.tracked then
    if walkFails (s.lane l) t c a then .error (.exc 0x08 0 false) else .ok (trackedValue (s.lane l) t c a, s)
  else if d.kind = 5 then .ok ((memGet (s.lane l).mem a, none), s)
  else match (c.untracked a c.cur).filter (fun _ => !c.inTransfer a) with
    | some v => .ok ((v, none), s)
    | none =>
      let (s1, n) := s.takeFree
      .ok ((Config.freeWord n, none), s1)

/-- A read of one word by the running cycle, which corrects the word (R194) and is recorded while tracking is on (R155). -/
def readAt (s : State) (l : LaneId) (t : Task) (d : SegRec) (a : Nat) : Run W36 :=
  match s.cycle l t with
  | none => .ok (memGet (s.lane l).mem a, s)
  | some c =>
    match valueAt s l t c d a with
    | .error e => .error e
    | .ok ((v, src), s1) =>
      let s0 := s1.modLane l (·.corrects a)
      if d.tracked && c.tracking then
        match recordRead (s0.lane l) t c.cur a src with
        | some x => .ok (v, s0.modLane l (fun _ => x))
        | none => .error (.fall 1)
      else .ok (v, s0)

/-- Places of a lane's record queue (R284). -/
def recordQueue : Nat := 64

/-- A commit record folded into the running fold of a task (R281); it takes a place of the lane's record queue (R284).
DESIGN CHOICE, log entry 95. -/
def foldRecord (x : Lane) (t : Task) (r : BitVec 128) : Lane :=
  { x.modCycle t (fun c => { c with fold := crc128 c.fold r, nrec := c.nrec + 1 }) with recq := min recordQueue (x.recq + 1) }

/-- A commit record of R282: type, task and fields. -/
def commitRecord (type : Nat) (t : Task) (rest : Nat) : BitVec 128 :=
  BitVec.ofNat 128 (type * 2 ^ 124 + t.val * 2 ^ 112 + rest)

/-- The WRITE record of a tracked write, folded into the signature and the checkpoint fold (R282, R288). -/
def foldWrite (x : Lane) (t : Task) (a : Nat) (v : W36) : Lane :=
  let rec_ := commitRecord 2 t (a * 2 ^ 36 + v.toNat)
  { foldRecord x t rec_ with ckptFold := crc128 x.ckptFold rec_ }

/-- The cycle cut after its instance `q` (R166): later W records undone, newest first, and later entries freed. -/
def truncateAfter (x : Lane) (t : Task) (q : Nat) : Lane :=
  let x1 := x.undoWhere (fun r => r.ownOpen t && decide (q < r.inst))
  (x1.dropVeins (fun v => v.task == t && decide (q < v.inst))).modCycle t (fun c =>
    { c with insts := c.insts.take (q + 1), truncated := true, uw := c.uw.filter (fun e => decide (e.2.1 ≤ q)) })

/-- The next event stamp as a lane sees it: Lane B has still to receive what the delivery list holds (R278). -/
def laneStamp (s : State) (l : LaneId) : Nat :=
  let coming := fun (e : DEvent × W48) => match e.1 with
    | .tkPassage _ n => some n
    | .words _ n => some n
    | .commitDone t => (s.asy.pend.find? (fun v => v.kind == .commit && v.task == t && v.sigB.isNone)).map (·.stamp)
    | _ => none
  if leads s l then s.seq.stamp else (s.seq.delivery.findSome? coming).getD s.seq.stamp

/-- A word of the running cycle's write takes effect: its room is made. -/
def putWord (s : State) (l : LaneId) (t : Task) (d : SegRec) (a : Nat) (v : W36) : State :=
  match s.cycle l t with
  | none => s
  | some c =>
    if d.tracked then
      let before := (trackedValue (s.lane l) t c a).1
      s.modLane l (fun x =>
        (foldWrite ((x.rewrites a).withStore (x.store.write t c.number c.cur a v (laneStamp s l))) t a v).modCycle t (fun k =>
          { k with
            curWrites := if k.pass == .replay && !k.curWrites.contains a then a :: k.curWrites else k.curWrites
            shadow := if k.tramBusy && !k.shadow.any (fun p => p.1 == a) then (a, before) :: k.shadow else k.shadow }))
    else
      let later := c.uw.any (fun e => e.1 == a && decide (c.cur < e.2.1))
      s.modLane l (fun x =>
        ({ x.rewrites a with mem := if later then x.mem else memSet x.mem a v }).modCycle t (fun k =>
          { k with uw := (a, c.cur, v) :: k.uw.filter (fun e => !(e.1 == a && e.2.1 == c.cur)) }))

/-- Consecutive words written in ascending order, once they have room. -/
def putWords (s : State) (l : LaneId) (t : Task) (d : SegRec) : Nat → List W36 → State
  | _, [] => s
  | a, v :: r => putWords (putWord s l t d a v) l t d (a + 1) r

/-- Before the words of one instruction are written: a write to a word that the previous pass did not write cuts the cycle after the
replayed instance (R166), and every record the words need has its place (R159, R177). The instruction does not retire where its own
cycle ends or falls back. An entry that the cut must read and cannot is a task fault (R268). -/
def openWords (s : State) (l : LaneId) (t : Task) (d : SegRec) (a n : Nat) : Run Unit :=
  match s.cycle l t with
  | none => .ok ((), s)
  | some c =>
    if d.tracked then
      let words := (List.range n).map (a + ·)
      let diverges := c.pass == .replay && !c.truncated && words.any (fun w => !c.prevWrites.any (fun p => p.1 == w))
      let s1 := if !diverges then s
        else if (s.lane l).undoBad (fun r => r.ownOpen t && decide (c.cur < r.inst)) then
          taskFault s t c.number 0x08 false (some l) 3 0 0
        else s.modLane l (fun x => truncateAfter x t c.cur)
      let missing := words.filter (fun w => !(s1.lane l).journal.any (fun r => r.addr == w && r.ownOpen t && r.inst == c.cur))
      let s2 := makeRoom missing.length 64 l (some t) s1
      let going : Bool := match s2.cycle l t with
        | some c2 => c2.hold != .waitFull
        | none => false
      if going then .ok ((), s2) else .error (.abandoned s2)
    else .ok ((), s)

/-- Consecutive words written by the running cycle. -/
def writeWords (s : State) (l : LaneId) (t : Task) (d : SegRec) (a : Nat) (vs : List W36) : Run Unit :=
  match openWords s l t d a vs.length with
  | .error e => .error e
  | .ok (_, s1) => .ok ((), putWords s1 l t d a vs)

/-- A write of one word by the running cycle. -/
def writeAt (s : State) (l : LaneId) (t : Task) (d : SegRec) (a : Nat) (v : W36) : Run Unit := writeWords s l t d a [v]

/-! ### Mismatches (R289-R291, R295) -/

/-- Class of a mismatch that is a unit fault (R609). -/
def mismatchClass (code : Nat) : Nat := if code ≤ 6 then 1 else if code = 7 then 6 else 5

/-- A mismatch at count `n` (R289): recorded, captured, and either a unit fault or the start of a rollback. -/
def mismatch (s : State) (code : Nat) (t : Task) (cycle : W32) (n : W48) (tripA tripB : Bool) (sigA sigB : BitVec 128) : State :=
  inOneClock s (
    let s0 := postDev s 0x0401 5
      (leBytes 1 (code + 16 * bit tripA + 32 * bit tripB) ++ leBytes 1 t.val ++ leBytes 4 cycle.toNat ++ leBytes 6 n.toNat)
    let s1 := if s0.asy.misValid then s0
      else notifySeam { s0 with asy := { s0.asy with
        opened := false, misValid := true, misTripA := tripA, misTripB := tripB, misTask := t.val, misCode := code, misCyc := cycle, misN := n,
        sigA := sigA, sigB := sigB } } 12
    let handover := s1.pair.role == .handOut || s1.pair.role == .handIn
    if code = 9 ∨ s1.asy.recovery ∨ handover then
      unitFault { s1 with asy := { s1.asy with perm := true } } (mismatchClass code) t.val (0x100 + code)
    else { s1 with asy := { s1.asy with recovery := true, rollback := some n, opened := false } })

/-- A mismatch found while the lanes run, about a cycle of a task, with the running folds of the cycle as signatures, and Lane A's final one
where it has committed the cycle (R300). -/
def laneMismatch (s : State) (code : Nat) (t : Task) (cycle : W32) (n : W48) : State :=
  let fold := fun l : LaneId => match s.cycle l t with | some c => c.fold | none => 0
  let done := s.asy.pend.find? (fun v => v.kind == .commit && v.task == t && v.cycle == cycle)
  mismatch s code t cycle n true true (match done with | some v => v.sigA | none => fold .a) (fold .b)

/-! ### Exceptions (R172, R239) -/

/-- An exception is taken (R239): at once by a lane that stands alone; in a pair Lane A waits until Lane B reaches the count.
DEDUCED, log entry 19. -/
def takeException (s : State) (l : LaneId) (t : Task) (code pass pc elem : Nat) (par : Bool) : State :=
  let s0 := if par then noteParity s l else s
  let n := (s0.lane l).count + 1
  let cycle := cycleNumber s0 l t
  if isSplit s0 then taskFault s0 t cycle code false none pass pc elem
  else if s0.asy.unpaired then
    match l with
    | .a => taskFault s0 t cycle code false (some .a) pass pc elem
    | .b => s0.modLane .b (fun x => (x.undoCycle t).dropCycle t)
  else match l with
    | .a => { s0 with asy := { s0.asy with exc := some ⟨t, cycle, n, BitVec.ofNat 8 code, pass, pc, elem⟩ } }
    | .b =>
      let clear : State := { s0 with asy := { s0.asy with exc := none } }
      match s0.asy.exc with
      | some e =>
        if e.count = n ∧ e.task = t ∧ e.code = BitVec.ofNat 8 code then taskFault clear t e.cycle code false none e.pass e.pc e.elem
        else laneMismatch clear 4 e.task e.cycle n
      | none => laneMismatch s0 4 t cycle n

/-- An exception at the current instruction: provisional in a first pass before Tk or after a dirty instance, else taken (R172). The
registers are kept as they stand there (R179). -/
def raise (s : State) (l : LaneId) (t : Task) (code elem : Nat) (par : Bool) : State :=
  match s.cycle l t with
  | none => s
  | some c =>
    let pc := (s.lane l).ctx.pc.toNat
    if c.pass == .first && (c.tkStamp.isNone || (c.insts.take c.cur).any (·.dirty)) then
      let h := Hold.provisional (BitVec.ofNat 8 code) elem par
      match (s.lane l).flush with
      | some x => s.modLane l (fun _ => x.modCycle t (fun k => { k with hold := h, fwdHold := h, fwd := pc, fwdCtx := x.ctx }))
      | none => fallback s l t 1
    else takeException s l t code c.pass.code pc elem par

end Sys2Proof.Machine
end

