-- ==== Sys2Proof/Machine/HfCore.lean ====
section
/-! DEFINITION. What every port access and every window read shares: the integrator partition's confinement (R364), Headframe
faults and vector entry (R366-R369), expert grants (R14), and committed values as the lane window shows them (R38). -/

namespace Sys2Proof.Machine

open Sys2Proof

/-! ### Entry to a vector and faults (R366-R369) -/

/-- A frame is pushed and execution goes on at the vector (R35, R367).
DEDUCED, log entry 27. -/
def enterVector (s : State) (v : Nat) : State :=
  let h := s.hf
  { s with hf := { h with
    frames := ⟨h.pc, h.n, h.z, h.c, h.v, h.p, h.ie, h.level, h.bank⟩ :: h.frames
    pc := BitVec.ofNat 15 (2 * v), p := false, level := v, waiting := false } }

/-- The integrator partition is stopped after a fault raised with P = 1, and after any PERM (R369).
DEDUCED, log entry 27. -/
def stopPartition (s : State) (vec : Nat) (pc addr : Nat) : State :=
  postDev { s with hf := { s.hf with intStop := true, imask := BitVec.allOnes 6 } } 0x0307 25
    (leBytes 1 vec ++ leBytes 1 0 ++ leBytes 2 pc ++ leBytes 2 addr)

/-- A Headframe fault: 1 ILLEGAL, 2 BUS, 3 PERM (R366, R368). The faulting instruction has no effect and is the return PC.
DEDUCED, log entry 27. -/
def hfFault (s : State) (vec : Nat) (addr : Nat) : State :=
  inOneClock s (
    let h := s.hf
    let s1 := if h.faultValid then s
      else { s with hf := { h with
        faultValid := true, faultPf := h.p, faultVec := vec, faultPc := h.pc, faultAddr := BitVec.ofNat 16 addr } }
    if h.level ≤ vec then unitFault { s1 with hf := { s1.hf with double := true, dead := true } } 13 0xFF 0x0210
    else
      let s2 := enterVector s1 vec
      if h.p || vec == 3 then stopPartition s2 vec h.pc.toNat addr else s2)

/-! ### The permission map (R364, R365) -/

/-- Port addresses of the HF block that the partition may always read and never write. -/
def hfReadOnlyPorts (a : Nat) : Bool :=
  a == 0x3200 || a == 0x3201 || (decide (0x3203 ≤ a) && decide (a ≤ 0x320F)) || a == 0x3214 ||
    (decide (0x3230 ≤ a) && decide (a ≤ 0x3235))

/-- A port access with P = 1 is permitted (R364, R45). -/
def portPermitted (s : State) (a : Nat) (write : Bool) : Bool :=
  let block := a / 0x200
  if 0x3400 ≤ a then true
  else if a = 0x3202 then true
  else if hfReadOnlyPorts a then !write
  else if write && (block == 7 || block == 21 || block == 24) then false
  else
    let map := s.hf.perm.toArray.getD (block / 8) 0
    map.getLsbD (2 * (block % 8) + bit write)

/-- A port lies in the expert half of its block (R13). -/
def isExpert (a : Nat) : Bool := decide (a < 0x3400) && decide (0x100 ≤ a % 0x200)

/-- The charter grants expert level for the port's block (R14, R15). -/
def expertGranted (s : State) (a : Nat) : Bool :=
  match s.cht.charter with
  | some c => c.head.grants.getLsbD (a / 0x200)
  | none => false

/-- An expert write without a grant (R14). -/
def expertDenied (s : State) (a : Nat) : State :=
  postDev { s with sys := { s.sys with expertDenied := true } } 0x0002 0
    (leBytes 1 (a / 0x200) ++ leBytes 1 0 ++ leBytes 2 (a % 0x200))

/-- The islands that hold a block, where they gate in the running state (R24, R458): the state of block LANE lies in both lanes (R468).
DEDUCED, log entry 36. -/
def blockIslands (block : Nat) : List Island :=
  if block = 4 then [0, 1]
  else if block = 5 then [3]
  else if block = 8 then [4]
  else if 10 ≤ block ∧ block < 14 then [8]
  else if block = 14 ∨ block = 15 then [6]
  else []

/-- A port access reopens the gates of its block's islands (R46).
DEDUCED, log entry 36. -/
def openBlockGate (s : State) (a : Nat) : State := (blockIslands (a / 0x200)).foldl openGate s

/-- A port write under the partition's confinement and the expert grants (R14, R45, R364). The expert half of SEC is outside
R14 (R547).
DESIGN CHOICE, log entry 127. -/
def gatedWrite (s : State) (a : Nat) (p : Bool) (effect : State → State) : State :=
  if p && !portPermitted s a true then hfFault s 3 a
  else if isExpert a && a / 0x200 != 21 && !expertGranted s a then expertDenied s a
  else effect (openBlockGate s a)

/-- A port lies in the expert half of SEC, the engine's command interface (R547). -/
def engineInterface (a : Nat) : Bool := decide (0x2B00 ≤ a) && decide (a < 0x2C00)

/-- A port read under the partition's confinement; with P = 1 the engine's interface reads 0 whatever the map says (R547).
DESIGN CHOICE, log entry 10; DEDUCED, log entry 36. -/
def gatedRead (s : State) (a : Nat) (p : Bool) (effect : State → State) : State :=
  if p && engineInterface a then { s with hf := { s.hf with portIn := 0 } }
  else if p && !portPermitted s a false then hfFault s 3 a
  else effect (openBlockGate s a)

/-- A value that a key port does not define is ignored and recorded (R110). -/
def keyBad (s : State) (a : Nat) (value : W16) : State := postDev s 0x0003 (a / 0x200) (leBytes 2 a ++ leBytes 2 value.toNat)

/-! ### Committed values (R38) -/

/-- The segment of a lane that holds a word. -/
def segmentAt (s : State) (l : LaneId) (a : Nat) : Option SegRec :=
  (descTable s l).find? (fun d => decide (d.base ≤ a) && decide (a < d.base + d.limit))

/-- A word as a window read shows it (R38): the committed value of a tracked word, the content of another. -/
def windowValue (s : State) (l : LaneId) (a : Nat) : W36 :=
  match segmentAt s l a with
  | some d => if d.tracked then (s.lane l).store.committed a else memGet (s.lane l).mem a
  | none => memGet (s.lane l).mem a

/-- The lane whose image and memory stand for the part: Lane A, and in split mode the task's own lane. -/
def homeLane (s : State) (t : Task) : LaneId := if isSplit s then taskLane s t else .a

end Sys2Proof.Machine
end

