-- ==== Sys2Proof/Machine/Pillar.lean ====
section
/-! DEFINITION. The pillar store (R489-R503): the SRAM and its areas, gather buffers and page commits, the retain copy, stores to the
shadow banks and recall, scrubbing (R491, R550) and the power-fail warning (R500, R583). -/

namespace Sys2Proof.Machine

open Sys2Proof

/-! ### The SRAM (R489, R490) -/

/-- A little-endian number in the pillar SRAM. -/
def pilNat (s : State) (a count : Nat) : Nat := leNat (pilBytes s a count)

/-- Offsets of the system records (R490). -/
def sysEpoch : Nat := 0x00
def sysLedger : Nat := 0x08
def sysEvtSeq : Nat := 0x10
def sysEvtLost : Nat := 0x18
def sysMargin : Nat := 0x20
def sysLastTime : Nat := 0x28
def sysStoreInfo : Nat := 0x30
def sysLayout : Nat := 0x40
def sysHashes : Nat := 0x60
def sysEvtState : Nat := 0x120
def sysPlanLog : Nat := 0x400

/-- First byte of the parameter area and of the event area. -/
def parameterArea : Nat := 0x2000
def eventArea : Nat := 0x40000

/-- Pages read: their single-bit errors are corrected, written back and counted (R491).
DESIGN CHOICE, log entry 98. -/
def correctPages (s : State) (pages : Nat → Bool) : State :=
  let n := (s.pil.single.filter (fun g => pages (g / 8))).length
  { s with pil := { s.pil with
    corr := s.pil.corr || n != 0
    corrCnt := if n = 0 then s.pil.corrCnt else sat16 s.pil.corrCnt n
    single := s.pil.single.filter (fun g => !pages (g / 8)) } }

def State.modPil (s : State) (f : PilState → PilState) : State := { s with pil := f s.pil }

/-- An uncorrectable group met by a read or by the scrubber: UNCORR is set, the page of the first is kept, and the event names the page
(R491).
DESIGN CHOICE, log entry 98. -/
def noteUncorrectable (s : State) (g : Nat) : State :=
  inOneClock s (
    detected (postDev (s.modPil (fun p => { p with uncorr := true, uncorrPg := if p.uncorr then p.uncorrPg else g / 8 })) 0x0801 16
      (leBytes 2 (g / 8))) 9)

/-- Pages read: single-bit errors are corrected, and the groups that cannot be are noted (R491).
DESIGN CHOICE, log entry 98. -/
def readPages (s : State) (pages : Nat → Bool) : State :=
  (s.pil.bad.filter (fun g => pages (g / 8))).foldl noteUncorrectable (correctPages s pages)

/-- A page read: single-bit errors are corrected, and the groups that cannot be are noted (R491).
DESIGN CHOICE, log entry 98. -/
def readPage (s : State) (page : Nat) : State :=
  readPages s (· == page)

/-- A buffer loaded with a page (R492). -/
def Gather.load (s : State) (page : Nat) : Gather where
  page := page
  off := 0
  data := Vector.ofFn (fun i : Fin 64 => memGet s.pil.sram (64 * page + i.val))

/-- A byte stored at the buffer's offset, which moves on modulo 64 (R492). -/
def Gather.push (g : Gather) (b : Byte) : Gather :=
  { g with data := g.data.set (Fin.ofNat 64 g.off) b, off := (g.off + 1) % 64 }

/-! ### Commits (R493, R494) -/

inductive Master where
  | headframe (p : Bool)
  | retain
  | recorder
  deriving DecidableEq, Repr

/-- The PILLAR records in effect. -/
def pillarRecs (s : State) : List PilRec := match s.cht.charter with | some c => c.pillar | none => []

/-- A page holds a byte of a PILLAR record (R494). -/
def holdsRecord (s : State) (page : Nat) : Bool :=
  (pillarRecs s).any (fun r =>
    let a := parameterArea + r.offset
    decide (a < 64 * page + 64) && decide (64 * page < a + 8 * r.words))

/-- A page lies inside the master's area (R489). -/
def inArea (s : State) (m : Master) (page : Nat) : Bool :=
  let a := 64 * page
  match m with
  | .headframe p => decide (a < parameterArea) && !p || decide (parameterArea ≤ a) && decide (a < eventArea)
  | .retain => holdsRecord s page
  | .recorder => decide (eventArea ≤ a) || a == 0 || decide (0x100 ≤ a) && decide (a < 0x200)

/-- REASON of a refused commit, 0 where it is not refused (R494). -/
def commitRefusal (s : State) (m : Master) (page : Nat) : Nat :=
  if s.pil.pfw && m != .retain then 1
  else if !inArea s m page then 2
  else match m with
    | .headframe _ => if holdsRecord s page then 3 else 0
    | _ => 0

/-- A page commit: the state and whether it was made (R493, R494). -/
def pilCommit (s : State) (m : Master) (page : Nat) (data : List Byte) : State × Bool :=
  let r := commitRefusal s m page
  if r = 0 then (writePage s page data, true)
  else (refuseCommit s r, false)

/-- Vendor firmware changes one group of a page through the Headframe buffer (R490, R492): the state and whether it was committed. -/
def firmwareCommit (s0 : State) (a : Nat) (bytes : List Byte) : State × Bool :=
  let page := a / 64
  let s := readPage s0 page
  let g := bytes.foldl Gather.push { Gather.load s page with off := a % 64 }
  let s1 := { s with pil := { s.pil with hf := g } }
  pilCommit s1 (.headframe false) page g.data.toList

/-! ### Stores and recall (R496-R498) -/

/-- The later of two sequence numbers, compared modulo 2^32: true where `b` is later than `a`. -/
def seqLater (a b : W32) : Bool := a != b && decide ((b - a).toNat < 2 ^ 31)

/-- The bank with the higher valid sequence number: true for bank 1; none where no marker is valid (R498, R512). -/
def higherBank (p : PilState) : Option Bool :=
  match p.bank0.seq, p.bank1.seq with
  | none, none => none
  | some _, none => some false
  | none, some _ => some true
  | some a, some b => some (seqLater a b)

/-- The layout hash over the PILLAR records of a charter: their bytes as the section holds them (R69, R102). -/
def layoutHash (rs : List PilRec) : List Byte :=
  Config.shake256 32 (rs.flatMap (fun r => leBytes 2 r.segId ++ leBytes 2 0 ++ leBytes 4 r.offset ++ leBytes 4 r.words))

/-- Bytes of one page written through the retain engine's buffer: the page is read, changed and committed (R492, R493).
DESIGN CHOICE, log entry 93. -/
def retainWrite (s0 : State) (a : Nat) (bytes : List Byte) : State :=
  let page := a / 64
  let s := readPage s0 page
  let g := bytes.foldl Gather.push { Gather.load s page with off := a % 64 }
  writePage (s.modPil (fun p => { p with ret := g })) page g.data.toList

/-- The layout hash of the charter in effect, written as a store begins (R102). -/
def putLayout (s : State) : State :=
  match s.cht.charter with
  | some c => retainWrite s sysLayout (layoutHash c.pillar)
  | none => s

/-- A store begins (R496): the marker of the bank that does not hold the higher number is invalid from now on, and the content at this
instant is what the bank will hold.
DESIGN CHOICE, log entry 93. -/
def beginStore (s : State) : State :=
  let bank1 := higherBank s.pil == some false
  (putLayout s).modPil (fun p =>
    let p1 := if bank1 then { p with bank1 := { p.bank1 with seq := none, began := true } }
      else { p with bank0 := { p.bank0 with seq := none, began := true } }
    { p1 with store := .storing bank1 p.sram })

/-- A store that runs holds a reset under way (R90, R110 HELD). -/
def holdReset (s : State) : State :=
  if resetUnderWay s && s.pil.store != .none then { s with sys := { s.sys with held := true } } else s

/-- A store triggered (R497): the retain copy comes first; a request during a store is merged into it. -/
def requestStore (s : State) : State :=
  if s.pil.store = .none then holdReset (s.modPil (fun p => { p with store := .copyDue })) else s

/-- Bits of STORE_INFO written (R490, R501). -/
def putStoreInfo (s : State) (diff torn : Bool) : State :=
  retainWrite s sysStoreInfo (leBytes 8 (bit diff + 2 * bit torn))

/-- A RET word as a lane holds it: the value of the last committed cycle (R497). -/
def retWord (s : State) (l : LaneId) (a : Nat) : W36 := windowValue s l a

/-- The lane and the segment that a PILLAR record is copied from: Lane A, where it has the segment. -/
def recordSource (s : State) (r : PilRec) : Option (LaneId × SegRec) :=
  match (descTable s .a).find? (fun d => d.segId == r.segId) with
  | some d => some (.a, d)
  | none => ((descTable s .b).find? (fun d => d.segId == r.segId)).map (fun d => (LaneId.b, d))

/-- One PILLAR record copied, word by word through the retain engine's buffer (R69, R492, R497). -/
def copyRecord (s : State) (r : PilRec) : State :=
  match recordSource s r with
  | none => s
  | some (l, d) => (List.range r.words).foldl (fun acc i =>
      retainWrite acc (parameterArea + r.offset + 8 * i) (leBytes 8 (retWord s l (d.base + i)).toNat)) s

/-- In paired mode a word of the record differs between the lanes (R501). -/
def recordDiffers (s : State) (r : PilRec) : Bool :=
  match recordSource s r with
  | none => false
  | some (_, d) => !isSplit s && (List.range r.words).any (fun i => retWord s .a (d.base + i) != retWord s .b (d.base + i))

/-- The retain copy (R497, R501). -/
def retainCopy (s : State) : State :=
  putStoreInfo ((pillarRecs s).foldl copyRecord s) ((pillarRecs s).any (recordDiffers s)) false

/-- A retain copy that the fall of a rail stops: RET_TORN is set and the store runs (R501).
DEDUCED, log entry 77. -/
def tearCopy (s : State) : State := if s.pil.store = .copyDue then beginStore (putStoreInfo s false true) else s

/-- RETAIN_COPY: a store has been triggered and no task commit is in progress: every RET word is copied, then the store begins. A rail that
lies below its brown-out threshold stops the copy (R501). -/
def execRetainCopy (s0 : State) : Out :=
  let s := endTogether s0
  .next (if !(s.sup.core && s.sup.lin) then tearCopy s else if s.pil.store = .copyDue then beginStore (retainCopy s) else s)

/-- The sequence number that follows the higher valid one.
DESIGN CHOICE, log entry 93. -/
def nextStoreSeq (p : PilState) : W32 :=
  match p.bank0.seq, p.bank1.seq with
  | none, none => 1
  | some a, none => a + 1
  | none, some b => b + 1
  | some a, some b => (if seqLater a b then b else a) + 1

/-- PILLAR_STORE_END: the copy and its marker are written; a warning whose threshold VHOLD has passed clears (R496, R497, R583). -/
def execPillarStoreEnd (t10us : W16) (s : State) : Out :=
  .next (
    match s.pil.store with
    | .storing bank1 snap =>
      let seq := nextStoreSeq s.pil
      let old := if bank1 then s.pil.bank1 else s.pil.bank0
      let new : Bank := ⟨some seq, old.count + 1, false, true, snap⟩
      let s1 := s.modPil (fun p =>
        let p1 := if bank1 then { p with bank1 := new } else { p with bank0 := new }
        { p1 with store := .none, storeT := t10us, pfw := p.pfw && !p.pfwClearDue, pfwClearDue := false })
      if s.pil.pfw then s1
      else postDev (notifySeam { s1 with hf := { s1.hf with notePillar := true } } 3) 0x0802 16 (leBytes 1 (bit bank1) ++ leBytes 1 0 ++ leBytes 4 seq.toNat ++ leBytes 2 t10us.toNat)
    | _ => s)

/-- VHOLD_BELOW_STORE_MINIMUM: a store is cut short and its bank stays without a valid marker (R496). -/
def execVholdBelowStoreMinimum (s : State) : Out := .next (s.modPil (fun p => { p with store := .none }))

/-- Pillar recall (R498): the SRAM from the valid bank with the higher sequence number, or zeros. -/
def recallPillar (s : State) : State :=
  let p := s.pil
  let valid := fun (b : Bank) => b.seq.isSome && b.copyOk
  let use := fun (b : Bank) (torn : Bool) => s.modPil (fun q => { q with sram := b.content, bad := [], single := [], recallOk := true, torn := torn })
  let cut := p.bank0.began || p.bank1.began
  let fail := fun (torn : Bool) => s.modPil (fun q => { q with sram := [], bad := [], single := [], recallOk := false, torn := torn })
  match higherBank p with
  | some true => if valid p.bank1 then use p.bank1 cut else if valid p.bank0 then use p.bank0 true else fail true
  | some false => if valid p.bank0 then use p.bank0 cut else if valid p.bank1 then use p.bank1 true else fail true
  | none => fail cut

/-! ### The power-fail warning (R500, R583) -/

/-- POWER_FAIL_WARNING: the warning stands, and the retain copy and the store are triggered as the state of a
start allows; a margin plan stops at once (R478). While a recovery or a handover lasts it is a unit fault (R295, R350, R553). -/
def execPowerFailWarning (s : State) : Out :=
  .next (
    let s0 := s.modPil (fun p => { p with pfw := true, pfwClearDue := false })
    let s1 := detected { s0 with age := { s0.age with planRun := false, planA := .idle, planB := .idle } } 11
    let before := !s.sys.warm && (match s.sys.phase with
      | .released false | .judging 2 | .locking 2 | .ramping 2 _ => true
      | _ => false)
    let between := !s.sys.warm && (match s.sys.phase with
      | .judging 7 | .locking 7 | .ramping 7 _ => true
      | _ => false)
    if s.pil.pfw || before then s1
    else
      if between then (if s1.pil.store = .none then beginStore s1 else s1) else holdReset (requestStore s1))

/-- POWER_FAIL_WARNING_CLEAR: the warning clears, or at the end of a store that runs (R500, R583). -/
def execPowerFailWarningClear (s : State) : Out :=
  .next (s.modPil (fun p => if p.store = .none then { p with pfw := false } else { p with pfwClearDue := p.pfw }))

/-! ### Scrubbing (R491, R550) -/

/-- Scrubbers run unless the charter's MODE stops them. -/
def scrubs (s : State) : Bool := match s.cht.charter with | some c => !c.head.scrubDis | none => true

/-- A group that cannot be corrected: its bytes are free from now on.
DESIGN CHOICE, log entry 94. -/
def spoilGroup (s : State) (g : Nat) : State :=
  let bytes := (List.range 8).map (fun i => Config.freeByte (s.free + i))
  { (s.modPil (fun p => { p with
      bad := if p.bad.contains g then p.bad else g :: p.bad, single := p.single.filter (· != g)
      sram := memWriteSeq p.sram (8 * g) bytes })) with free := s.free + 8 }

/-- A single bit upset at a byte: a second one in its group cannot be corrected, and shows when the group is next read.
DESIGN CHOICE, log entry 98. -/
def pillarStruck (s : State) (a : Nat) : State :=
  if s.pil.single.contains (a / 8) then spoilGroup s (a / 8) else s.modPil (fun p => { p with single := a / 8 :: p.single })

/-- One group found by the scrubber.
DESIGN CHOICE, log entry 94. -/
def pillarFind (s : State) (f : ScrubFind) : State :=
  if f.uncorrectable then noteUncorrectable (spoilGroup s (f.address / 8)) (f.address / 8)
  else s.modPil (fun p => { p with corr := true, corrCnt := sat16 p.corrCnt 1 })

/-- PILLAR_SCRUB: one pass over every group corrects what can be corrected and notes what cannot (R491). The upsets strike behind the
pass.
DESIGN CHOICE, log entry 98. -/
def execPillarScrub (pass : PillarPass) (s : State) : Out :=
  let s1 := if scrubs s then pass.finds.foldl pillarFind (s.pil.bad.foldl noteUncorrectable (correctPages s (fun _ => true))) else s
  .next (pass.upsets.foldl pillarStruck s1)

/-- A word of a lane has an error that cannot be corrected. -/
def Lane.spoil (x : Lane) (a : Nat) : Lane := { x with bad := if x.bad.contains a then x.bad else a :: x.bad }

/-- Two words share their check bits (R30, R31).
DESIGN CHOICE, log entry 98. -/
def sameCheckBits (a b : Nat) : Bool := a == b || (decide (a < 0x200000) && a / 2 == b / 2)

/-- What an upset leaves: a second bit under the same check bits makes the word uncorrectable (R30, R31, R245, R268).
DESIGN CHOICE, log entry 98. -/
def Lane.struck (x : Lane) (u : Upset) : Lane :=
  match u with
  | .bit a => if x.single.any (sameCheckBits a) then x.spoil a else { x with single := a :: x.single }
  | .word a => x.spoil a
  | .descriptor i => { x with descPar := if x.descPar.contains i then x.descPar else i :: x.descPar }
  | .journal i => { x with journal := listModify x.journal i (fun r => { r with err := true }) }
  | .vein i => { x with vein := listModify x.vein i (fun v => { v with err := true }) }
  | .inst t i => x.modCycle t (fun c => { c with insts := listModify c.insts i (fun n => { n with err := true }) })

/-- One word found by a lane's scrubber: an uncorrectable one is a unit fault (R550, R609). -/
def laneFind (l : LaneId) (s : State) (f : ScrubFind) : State :=
  if f.uncorrectable then unitFault (s.modLane l (·.spoil f.address)) (if f.address < 0x200000 then 2 else 3) 0xFF 8 else s

/-- LANE_MEMORY_SCRUB: one pass over a lane's memory and image copy corrects every single-bit error and reports every uncorrectable word
(R550, R609). The upsets strike behind the pass.
DESIGN CHOICE, log entry 98. -/
def execLaneMemoryScrub (l : LaneId) (pass : ScrubPass) (s : State) : Out :=
  let finds := (s.lane l).bad.map (fun a => (⟨a, true⟩ : ScrubFind)) ++ pass.finds
  let s1 := if scrubs s then finds.foldl (laneFind l) (s.modLane l (fun x => { x with single := [] })) else s
  .next (s1.modLane l (fun x => pass.upsets.foldl Lane.struck x))

/-! ### PIL ports that act (R492-R497, R512) -/

/-- A write of PIL.PAGE loads the Headframe buffer (R491, R492). -/
def pilPageEffect (s : State) (value : W16) : State :=
  let page := value.toNat % 16384
  let s1 := readPage s page
  s1.modPil (fun p => { p with hf := Gather.load s1 page })

/-- A write of PIL.GDATA stores a word at the offset, which moves on modulo 64 bytes (R492). -/
def pilGdataEffect (s : State) (value : W16) : State :=
  s.modPil (fun p => { p with hf := (p.hf.push (value.setWidth 8)).push (value.extractLsb' 8 8) })

/-- PIL_PAGE (R492). -/
def execPilPage (value : W16) (p : Bool) (s : State) : Out := .next (gatedWrite s 0x2001 p (pilPageEffect · value))

/-- PIL_GDATA (R492). -/
def execPilGdata (value : W16) (p : Bool) (s : State) : Out := .next (gatedWrite s 0x2003 p (pilGdataEffect · value))

/-- A commit of the Headframe buffer (R493). -/
def pilCommitEffect (p : Bool) (s : State) : State := (pilCommit s (.headframe p) s.pil.hf.page s.pil.hf.data.toList).1

/-- PIL_COMMIT: a write of 0x5C01 to PIL.COMMIT (R493, R494). -/
def execPilCommit (p : Bool) (s : State) : Out := .next (gatedWrite s 0x2004 p (pilCommitEffect p))

/-- PIL_CMD_STORE: a write of 0x5C57 to PIL.CMD (R497). -/
def execPilCmdStore (p : Bool) (s : State) : Out := .next (gatedWrite s 0x2005 p requestStore)

end Sys2Proof.Machine
end

