-- ==== Sys2Proof/Machine/Backup.lean ====
section
/-! DEFINITION. The backup domain (R504-R513): the calendar and its trim, setting and alarm, PWRON, the change of supply and the
validity latch. -/

namespace Sys2Proof.Machine

open Sys2Proof

/-! ### The calendar (R504, R505) -/

/-- Leap years of the Gregorian calendar, the year counted from 2000. -/
def leapYear (y : Nat) : Bool :=
  let n := 2000 + y
  n % 4 == 0 && (n % 100 != 0 || n % 400 == 0)

/-- Days of a month. -/
def monthDays (y m : Nat) : Nat :=
  match m with
  | 2 => if leapYear y then 29 else 28
  | 4 | 6 | 9 | 11 => 30
  | _ => 31

/-- The calendar one fraction step later, and whether it wrapped (R504). -/
def Cal.advance (c : Cal) : Cal × Bool :=
  if c.frac < 1023 then ({ c with frac := c.frac + 1 }, false)
  else if c.second < 59 then ({ c with frac := 0, second := c.second + 1 }, false)
  else if c.minute < 59 then ({ c with frac := 0, second := 0, minute := c.minute + 1 }, false)
  else if c.hour < 23 then ({ c with frac := 0, second := 0, minute := 0, hour := c.hour + 1 }, false)
  else
    let d : Cal := { c with frac := 0, second := 0, minute := 0, hour := 0 }
    if c.day < monthDays c.year c.month then ({ d with day := c.day + 1 }, false)
    else if c.month < 12 then ({ d with day := 1, month := c.month + 1 }, false)
    else if c.year < 399 then ({ d with day := 1, month := 1, year := c.year + 1 }, false)
    else (Cal.init, true)

/-- The trim code as a signed number (R505). -/
def trimCode (b : BkpState) : Int := b.trim.toInt

/-- The fraction step that begins now is trimmed (R505): |T| of the steps of a period, spread evenly, take one cycle less or more. A step
is trimmed where the steps trimmed so far fall short of the share of |T| that is due at its end. -/
def stepTrimmed (b : BkpState) : Bool := decide (b.trims < (b.osc + 32) * (trimCode b).natAbs / 8000000)

/-- Oscillator cycles of the fraction step that begins now. -/
def stepCycles (b : BkpState) : Nat := if !stepTrimmed b then 32 else if 0 < trimCode b then 31 else 33

/-- The place in the trim period after the step that begins now: a period that ends gives way to the next. -/
def stepOsc (b : BkpState) : BkpState :=
  let n := b.osc + stepCycles b
  { b with osc := n % 8000000, trims := if 8000000 ≤ n then 0 else b.trims + bit (stepTrimmed b) }

def State.modBkp (s : State) (f : BkpState → BkpState) : State := { s with bkp := f s.bkp }

/-- The nonces that await their use grow older by 1/1,024 s (R440, R546).
DESIGN CHOICE, log entry 42. -/
def ageNonces (s : State) : State :=
  { s with
    obt := { s.obt with nonce := s.obt.nonce.map (fun p => (p.1, p.2 + 1)) }
    tap := { s.tap with nonce := s.tap.nonce.map (fun p => (p.1, p.2 + 1)) } }

/-- Ticks of 1/1,024 s in the 60 s for which a nonce holds.
DESIGN CHOICE, log entry 42. -/
def nonceLife : Nat := 61440

/-- CALENDAR_TICK: a fraction step; the alarm fires when counting reaches the armed instant (R504, R505, R508).
DESIGN CHOICE, log entry 95. -/
def execCalendarTick (s : State) : Out :=
  let s0 := ageNonces (returnSeams s true)
  let fires := s.bkp.almEn && s.bkp.cal.advance.1 == s.bkp.armed
  let s1 := s0.modBkp (fun b =>
    let (c, wrapped) := b.cal.advance
    { stepOsc b with
      cal := c
      calWrap := b.calWrap || wrapped, timeValid := b.timeValid && !wrapped
      alarm := b.alarm || fires, almEn := b.almEn && !fires, pwron := b.pwron || fires })
  .next (if fires then notifySeam s1 1 else s1)

/-! ### Setting the time and the alarm (R507, R508) -/

/-- The calendar instant that three staged port values name (R513). -/
def stagedCal (ym dh ms : W16) : Cal where
  year := bitsOf ym.toNat 12 4
  month := bitsOf ym.toNat 3 0
  day := bitsOf dh.toNat 12 8
  hour := bitsOf dh.toNat 4 0
  minute := bitsOf ms.toNat 13 8
  second := bitsOf ms.toNat 5 0
  frac := 0

/-- Every field is in range (R507).
DESIGN CHOICE, log entry 60. -/
def Cal.valid (c : Cal) : Bool :=
  decide (c.year ≤ 399) && decide (1 ≤ c.month) && decide (c.month ≤ 12) && decide (1 ≤ c.day) &&
    decide (c.day ≤ monthDays c.year c.month) && decide (c.hour ≤ 23) && decide (c.minute ≤ 59) && decide (c.second ≤ 59)

/-- A number that rises with calendar time. -/
def Cal.rank (c : Cal) : Nat :=
  (((((c.year * 16 + c.month) * 32 + c.day) * 32 + c.hour) * 64 + c.minute) * 64 + c.second) * 1024 + c.frac

/-- A time set as a whole, or rejected (R507).
DESIGN CHOICE, log entry 60. -/
def setCalendar (s : State) (c : Cal) : State × Bool :=
  if c.valid then (s.modBkp (fun b => { b with cal := { c with frac := 0 }, timeValid := true }), true)
  else (notifySeam (s.modBkp (fun b => { b with dateErr := true, setYm := 0, setDh := 0, setMs := 0 })) 1, false)

/-- A write of BKP.SET_MS lands (R506, R507, R510). -/
def bkpSetMsEffect (s : State) (value : W16) : State :=
  if s.bkp.locked then s
  else (setCalendar (s.modBkp (fun b => { b with setMs := value &&& 0x3F3F#16 })) (stagedCal s.bkp.setYm s.bkp.setDh value)).1

/-- A write of BKP.ALM_MS lands (R508): a set out of range or not later than the calendar is rejected. -/
def bkpAlmMsEffect (s : State) (value : W16) : State :=
  if s.bkp.locked then s
  else
    let c := stagedCal s.bkp.almYm s.bkp.almDh value
    if c.valid ∧ s.bkp.cal.rank < c.rank then s.modBkp (fun b => { b with almMs := value &&& 0x3F3F#16, armed := c, almEn := true })
    else notifySeam (s.modBkp (fun b => { b with dateErr := true })) 1

/-- BKP_SET_MS (R507). -/
def execBkpSetMs (value : W16) (p : Bool) (s : State) : Out := .next (gatedWrite s 0x220A p (bkpSetMsEffect · value))

/-- BKP_ALM_MS (R508). -/
def execBkpAlmMs (value : W16) (p : Bool) (s : State) : Out := .next (gatedWrite s 0x220E p (bkpAlmMsEffect · value))

/-- PWRON released by its key, once the interface is unlocked (R509). -/
def pwronRelEffect (s : State) : State := if s.bkp.locked then s else s.modBkp (fun b => { b with pwron := false })

/-- BKP_PWRON_REL: a write of 0x9F0E to BKP.PWRON_REL (R509). -/
def execBkpPwronRel (p : Bool) (s : State) : Out := .next (gatedWrite s 0x2211 p pwronRelEffect)

/-- PWRON_TIMEOUT: 60 s of calendar time with the interface still locked (R509). -/
def execPwronTimeout (s : State) : Out :=
  .next (if s.bkp.pwron && s.bkp.locked then s.modBkp (fun b => { b with pwron := false, pwronTo := true }) else s)

/-- The fraction read, with every calendar field captured (R506); a locked interface reads 0 (R510). -/
def calFracEffect (s : State) : State :=
  if s.bkp.locked then { s with hf := { s.hf with portIn := 0 } }
  else { (s.modBkp (fun b => { b with capture := b.cal })) with hf := { s.hf with portIn := BitVec.ofNat 16 s.bkp.cal.frac } }

/-- BKP_CAL_FRAC_READ: a read of BKP.CAL_FRAC (R506). -/
def execBkpCalFracRead (p : Bool) (s : State) : Out := .next (gatedRead s 0x2201 p calFracEffect)

/-! ### Supply (R510, R511) -/

/-- BACKUP_SUPPLY_SWITCH: the interface locks and the domain runs on VBAT (R510). -/
def execBackupSupplySwitch (s : State) : Out := .next (s.modBkp (fun b => { b with locked := true, vbat := true, onVbat := true }))

/-- BACKUP_SUPPLY_RETURN: the domain switches back and unlocks (R510). -/
def execBackupSupplyReturn (s : State) : Out := .next (s.modBkp (fun b => { b with locked := false, vbat := false }))

/-- VALIDITY_LATCH_SET: the backup rail has fallen below the retention voltage (R511). -/
def execValidityLatchSet (s : State) : Out := .next (s.modBkp (fun b => { b with latch := true }))

/-- LAST_TIME of the system area (R490). -/
def lastTimeBytes (b : BkpState) : List Byte :=
  let c := b.cal
  leBytes 8 (c.second + 2 ^ 8 * c.minute + 2 ^ 16 * c.hour + 2 ^ 24 * c.day + 2 ^ 32 * c.month + 2 ^ 40 * c.year +
    2 ^ 56 * bit b.timeValid)

/-- LAST_TIME_COMMIT: once per second while TIME_VALID is 1, vendor firmware commits LAST_TIME (R490); a locked interface reads TIME_VALID
as 0 (R510). -/
def execLastTimeCommit (s : State) : Out :=
  .next (if s.bkp.timeValid && !s.bkp.locked then (firmwareCommit s sysLastTime (lastTimeBytes s.bkp)).1 else s)

/-- LAST_TIME as the TIME of a record (R511, R514). -/
def lastTimeStamp (s : State) : BitVec 48 :=
  let w := pilNat s sysLastTime 8
  calStamp { year := bitsOf w 48 40, month := bitsOf w 35 32, day := bitsOf w 28 24, hour := bitsOf w 20 16,
             minute := bitsOf w 13 8, second := bitsOf w 5 0, frac := 0 }

/-- The TIME_LOST event of a check made before recall shows LAST_TIME as recall leaves it (R511). -/
def timeLostParameter (s : State) : State :=
  { s with evt := { s.evt with queue := s.evt.queue.map (fun (e : EvItem) =>
    if e.code = 0x0804 then { e with param := leBytes 6 (lastTimeStamp s).toNat ++ List.replicate 6 0 } else e) } }

/-- The backup domain check at step 1 of every start (R511). -/
def backupCheck (s0 : State) : State :=
  if s0.bkp.latch then
    let s := if s0.sys.warm then readPage s0 0 else s0
    postDev (s.modBkp (fun b => { b with
      cal := Cal.init, osc := 0, trims := 0, timeValid := false, almEn := false, pwron := false
      bytes := Vector.replicate 64 0, timeLost := true, latch := false })) 0x0804 17 (leBytes 6 (lastTimeStamp s).toNat)
  else s0

end Sys2Proof.Machine
end

