-- ==== Sys2Proof/Machine/Flags.lean ====
section
/-! DEFINITION. The flag computations of the lanes (R185, R213) and of the Headframe (R359), at any width. -/

namespace Sys2Proof.Machine

open Sys2Proof

/-- The four flags. -/
structure Flags where
  n : Bool
  z : Bool
  c : Bool
  v : Bool
  deriving DecidableEq, Repr

/-- NZ of R213: N and Z from the result, C and V left unchanged. -/
def nzOf {w : Nat} (r : BitVec w) (f : Flags) : Flags := { f with n := r.msb, z := r == 0#w }

/-- The sum of two words and a carry in, with NZCV (R213): C is the carry out, V is signed overflow. -/
def addWith {w : Nat} (a b : BitVec w) (cin : Bool) : BitVec w × Flags :=
  let t := a.toNat + b.toNat + cin.toNat
  let r := BitVec.ofNat w t
  (r, ⟨r.msb, r == 0#w, decide (2 ^ w ≤ t), a.msb == b.msb && r.msb != a.msb⟩)

/-- The difference `a - b - (1 - cin)` with NZCV under the no-borrow convention (R185, R213). -/
def subWith {w : Nat} (a b : BitVec w) (cin : Bool) : BitVec w × Flags := addWith a (~~~b) cin

/-- `a - b` with NZCV. -/
def subFlags {w : Nat} (a b : BitVec w) : BitVec w × Flags := subWith a b true

/-- A shift or rotation of R217 (lanes) and R362 (Headframe). -/
inductive ShiftKind where
  | lsl | lsr | asr | rol | ror
  deriving DecidableEq, Repr

/-- The result of a shift or rotation by `s` (R217). -/
def shiftResult {w : Nat} (k : ShiftKind) (a : BitVec w) (s : Nat) : BitVec w :=
  match k with
  | .lsl => if s < w then a <<< s else 0#w
  | .lsr => if s < w then a >>> s else 0#w
  | .asr => if s < w then a.sshiftRight s else if a.msb then BitVec.allOnes w else 0#w
  | .rol => a.rotateLeft (s % w)
  | .ror => a.rotateRight (s % w)

/-- C after a shift or rotation by `s` (R217): the last bit shifted or rotated out; unchanged where `s` is 0. A shift by exactly
the width moves out the bit that position n - 1 of the shift would have moved out; a shift by more clears C. A rotation by
`s` counts every bit position, so its last bit out is that of `s` mod n, which for a whole turn is the bit of a rotation by n.
DEDUCED, log entry 22. -/
def shiftCarry {w : Nat} (k : ShiftKind) (a : BitVec w) (s : Nat) (c : Bool) : Bool :=
  if s = 0 then c
  else match k with
    | .lsl => if s ≤ w then a.getLsbD (w - s) else false
    | .lsr => if s ≤ w then a.getLsbD (s - 1) else false
    | .asr => if s ≤ w then a.getLsbD (s - 1) else false
    | .rol => a.getLsbD ((w - s % w) % w)
    | .ror => a.getLsbD ((s % w + w - 1) % w)

end Sys2Proof.Machine
end

