-- ==== Sys2Proof/Machine/LaneRun.lean ====
section
/-! DEFINITION. How a lane retires one instruction: instances and block entry (R150-R154), the end of a replayed instance
(R164-R166), fences (R168-R171), the retired-instruction count and checkpoints (R274-R276, R288), and the one driver that every
lane instruction goes through. -/

namespace Sys2Proof.Machine

open Sys2Proof

/-! ### Instances -/

/-- Exit of an instance that has not ended yet: no address of a program. -/
def noExit : Nat := 0xFFFFFFFF

/-- Registers at an instance start (R153): only X13 and X14 are carried. -/
def blockEntryClear (c : Ctx) (pc : Nat) (x13 x14 : W36) : Ctx :=
  { c with x := ((Vector.replicate 16 (0 : W36)).set 13 x13).set 14 x14, rlr := false, stack := [], n := false, z := false,
           c := false, v := false, pc := BitVec.ofNat 20 pc, atEnd := false }

/-- A new entry of the instance table. -/
def Inst.start (bs : List BlockEnt) (pc : Nat) (x13 x14 : W36) : Inst :=
  ⟨blockIdx bs pc, BitVec.ofNat 20 pc, x13, x14, x13, x14, noExit, 0, false, [], false⟩

/-- Entries of the instance table in use on a lane (R154). -/
def Lane.instUse (l : Lane) : Nat :=
  (l.cycles.toList.map (fun c => match c with | some k => if k.pass == .full then 0 else k.insts.length | none => 0)).sum

/-- The lane stands at the program end (R254, R262). -/
def standAtEnd (s : State) (l : LaneId) (t : Task) : State :=
  s.modLane l (fun x => ({ x with ctx := { x.ctx with pc := 0, atEnd := true } }).modCycle t (fun c =>
    { c with hold := .progEnd, fwdHold := .progEnd, fwd := progLength s l, fwd13 := x.ctx.x[13], fwd14 := x.ctx.x[14],
             fwdCtx := { x.ctx with pc := 0, atEnd := true } }))

/-- An instance is entered in a forward pass (R151, R169): a fence block stops the pass before Tk and while an instance is dirty. -/
def enterBlock (s : State) (l : LaneId) (t : Task) (target : Nat) (x13 x14 : W36) : State :=
  match s.cycle l t with
  | none => s
  | some c =>
    let x := s.lane l
    if c.pass == .full then s.modLane l (fun y => { y with ctx := blockEntryClear y.ctx target x13 x14 })
    else if isFenceAt x.blocks target && (c.tkStamp.isNone || c.anyDirty) then
      s.modLane l (fun y => ({ y with ctx := { y.ctx with pc := BitVec.ofNat 20 target } }).modCycle t (fun k =>
        { k with hold := .fence, fwdHold := .fence, fwd := target, fwd13 := x13, fwd14 := x14,
                 fwdCtx := { y.ctx with pc := BitVec.ofNat 20 target, atEnd := false } }))
    else if instanceSize ≤ x.instUse then fallback s l t 2
    else
      s.modLane l (fun y => ({ y with ctx := blockEntryClear y.ctx target x13 x14 }).modCycle t (fun k =>
        { k with insts := k.insts ++ [Inst.start y.blocks target x13 x14], cur := k.insts.length, hold := .run,
                 fwdHold := .run }))

/-- The forward pass goes on at a target, or stands at the program end. -/
def goOn (s : State) (l : LaneId) (t : Task) (target : Nat) (x13 x14 : W36) : State :=
  if target = progLength s l then standAtEnd s l t else enterBlock s l t target x13 x14

/-- A replayed instance ends (R165, R166): later readers of changed words are marked, or the cycle is cut after it and the
forward pass resumes at its exit target. Where the forward pass stands as before, so do its registers (R179). An entry that this reads and
that is uncorrectable is a task fault (R268). -/
def endReplay (s : State) (l : LaneId) (t : Task) (c : LCycle) (target : Nat) : State :=
  let x := s.lane l
  let unreadable := taskFault s t c.number 0x08 false (some l) 3 0 0
  let q := c.cur
  let x13 := x.ctx.x[13]
  let x14 := x.ctx.x[14]
  let unwritten := (c.prevWrites.map (·.1)).filter (fun a => !c.curWrites.contains a)
  let left := match c.insts[q]? with
    | some i => i.exit != target || i.x13out != x13 || i.x14out != x14
    | none => true
  let close := fun k : LCycle => { k with
    insts := listModify k.insts q (fun i => { i with exit := target, x13out := x13, x14out := x14 }) }
  if c.truncated || !unwritten.isEmpty || left then
    if x.undoBad (fun r => r.ownOpen t && (decide (q < r.inst) || (r.inst == q && unwritten.contains r.addr))) then unreadable
    else
    let cut := fun y : Lane =>
      let y1 := if c.truncated then y else truncateAfter y t q
      (y1.undoWhere (fun r => r.ownOpen t && r.inst == q && unwritten.contains r.addr)).modCycle t (fun k =>
        { close k with pass := .resumed, resumed := true, truncated := false, prevWrites := [], curWrites := [], fwdHold := .run })
    goOn (s.modLane l cut) l t target x13 x14
  else
    let changed := (c.prevWrites.filter (fun p =>
      match x.store.following p.1 (fun r => r.ownOpen t && r.inst == q) with
      | some f => f.1 != p.2
      | none => true)).map (·.1)
    let entries := (x.vein ++ x.readSet).filter (fun v =>
      v.task == t && v.src == some q && changed.contains v.addr && decide (q < v.inst))
    if entries.any (·.err) || x.undoBad (fun r => r.ownOpen t && r.inst == q) then unreadable
    else
    let readers := entries.map (·.inst)
    let insts := (List.range c.insts.length).zipWith
      (fun (i : Nat) (n : Inst) => if readers.contains i then { n with dirty := true } else n) (close c).insts
    let more := insts.any (·.dirty)
    s.modLane l (fun y => ({ y with ctx := c.fwdCtx }).modCycle t (fun k =>
      { k with insts := insts, pass := if k.resumed then .resumed else .first, prevWrites := [], curWrites := [],
               hold := if more then .replayNext else k.fwdHold }))

/-- An instance ends at a target (R151): the read set is flushed and its exit is kept (R154, R157). -/
def leaveInstance (s : State) (l : LaneId) (t : Task) (target : Nat) : State :=
  match s.cycle l t with
  | none => s
  | some c =>
    match (s.lane l).flush with
    | none => fallback s l t 1
    | some x =>
      let s1 := s.modLane l (fun _ => x)
      match c.pass with
      | .replay => endReplay s1 l t c target
      | .full => goOn s1 l t target x.ctx.x[13] x.ctx.x[14]
      | _ =>
        let s2 := s1.modCycle l t (fun k => { k with
          insts := listModify k.insts k.cur (fun i => { i with exit := target, x13out := x.ctx.x[13], x14out := x.ctx.x[14] }) })
        goOn s2 l t target x.ctx.x[13] x.ctx.x[14]

/-! ### Cycle starts on a lane and the choice of the task (R118, R122) -/

/-- A cycle begins on the lane: registers, flags and selectors as R118 sets them, execution at ENTRY. -/
def setupCycle (s : State) (l : LaneId) (t : Task) : State :=
  let entry := match taskRec s t with | some r => r.entry | none => 0
  let s1 := s.modLane l (fun x => ({ x with cur := some t, stall := .none, ctx := { Ctx.init with sel := taskSelectors s l t } }).modCycle t
    (fun c => { c with fresh := false, saved := false }))
  enterBlock s1 l t entry 0 0

/-- The island of a lane (R57). -/
def laneIsland (l : LaneId) : Island := match l with | .a => 0 | .b => 1

/-- An idle lane takes the highest-priority task with work, which opens its gate (R122, R460); a task whose context is saved waits for its
restore. -/
def dispatch (s : State) (l : LaneId) : State :=
  let x := s.lane l
  if x.stopped || x.cur.isSome then s
  else match x.pick with
    | none => s
    | some t =>
      match x.cycle t with
      | none => s
      | some c =>
        if c.saved then s
        else
          let s1 := openGate s (laneIsland l)
          if c.fresh then setupCycle s1 l t else s1.modLane l (fun y => { y with cur := some t, stall := .none })

/-- Both lanes choose. -/
def dispatchBoth (s : State) : State := dispatch (dispatch s .a) .b

/-! ### When a lane may retire (R122-R124, R274-R276) -/

/-- A task of higher priority than the running one has work (R122).
DEDUCED, log entry 103. -/
def outranked (s : State) (l : LaneId) : Bool :=
  let x := s.lane l
  match x.cur, x.pick with
  | some t, some u => decide (u < t)
  | _, _ => false

/-- A pre-emption is due at the lane's next instruction boundary (R123): a higher-priority task has work, or a request was delivered to
the lane that follows.
DEDUCED, log entry 103. -/
def preemptDue (s : State) (l : LaneId) : Bool := outranked s l || (!leads s l && (s.lane l).preReq)

/-- Lane A's lead over Lane B (R275). -/
def lead (s : State) : Nat := (s.laneA.count - s.laneB.count).toNat

/-- The lead limit (R275). -/
def leadLimit (s : State) : Nat := assayOffset s + 1024 * s.asy.leadlim

/-- A cycle stands at its program end with nothing left to replay: only its commit is ahead (R167, R254). -/
def LCycle.finished (c : LCycle) : Bool := c.hold == .progEnd && c.tkStamp.isSome && !c.anyDirty

/-- Lane A has no work or is stalled without retiring (R274): in a wait, at the lead limit, at a taken exception, or at a program end
before its commit.
DEDUCED, log entry 121. -/
def laneAQuiet (s : State) : Bool :=
  let x := s.laneA
  let idle := match x.pick with
    | none => true
    | some t => x.cur == some t && (match x.cycle t with | some c => c.finished | none => true)
  x.stopped || x.halted || x.stall != .none || s.asy.exc.isSome || idle || decide (leadLimit s ≤ lead s)

/-- The delivery list's oldest entry is due at Lane B's count (R278). -/
def deliveryDue (s : State) : Bool :=
  match s.seq.delivery with
  | (_, n) :: _ => n == s.laneB.count
  | [] => false

/-- A commit or an EGI of Lane B waits for its verdict (R276, R287). -/
def commitPending (s : State) : Bool := s.asy.pend.any (fun v => v.kind != .ckpt && v.sigB.isSome)

/-- A checkpoint verdict is pending at Lane B (R276). -/
def checkpointPending (s : State) : Bool := s.asy.pend.any (fun v => v.kind == .ckpt && v.sigB.isSome)

/-- Lane B's offset gate (R274, R276, R278). At the count of an exception that Lane A has taken Lane B comes to its own instruction,
which it does not retire (R289).
DEDUCED, log entry 121. -/
def laneBGate (s : State) : Bool :=
  !commitPending s && !deliveryDue s &&
    (decide (assayOffset s < lead s) || (laneAQuiet s && (decide (0 < lead s) || s.asy.exc.isSome)))

/-- The task and cycle for which a lane may retire its next instruction; none where it may not. -/
def mayRetire (s : State) (l : LaneId) : Option (Task × LCycle) :=
  let x := s.lane l
  match x.cur with
  | none => none
  | some t =>
    match x.cycle t with
    | none => none
    | some c =>
      let free := !x.stopped && (!x.halted || x.stepOne) && c.hold == .run && !c.fresh && !preemptDue s l && s.asy.rollback.isNone
      let gate :=
        if isSplit s then true
        else match l with
          | .a => s.asy.exc.isNone && decide (lead s < leadLimit s)
          | .b => laneBGate s
      -- a full record queue holds the lane (R284)
      let records := !isPaired s || decide (x.recq < recordQueue)
      if free && gate && records then some (t, c) else none

/-- Lane B would retire past the count at which Lane A began a commit (R289 SIG); a pre-emption that is due there comes first (R123).
DEDUCED, log entry 19. -/
def missedCommit (s : State) (l : LaneId) : Option Task :=
  if l == .b && isPaired s && !commitPending s && s.asy.rollback.isNone && !s.laneB.stopped && !preemptDue s .b &&
      (!s.laneB.halted || s.laneB.stepOne) then
    match s.laneB.cur, s.seq.delivery with
    | some t, (.commitDone u, n) :: _ =>
      let running := match s.laneB.cycle t with
        | some c => c.hold == .run && !c.fresh
        | none => false
      if n == s.laneB.count && running then some u else none
    | _, _ => none
  else none

/-! ### Retiring -/

/-- Where execution goes after an instruction. -/
inductive Flow where
  | seq
  /-- A block instruction with elements left (R219). -/
  | stay
  | branch (target : Nat)
  /-- A call or a return: it always begins an instance (R151). -/
  | cross (target : Nat)
  deriving DecidableEq, Repr

/-- A verdict with nothing in it. -/
def Verdict.blank (kind : VKind) (t : Task) (cycle : W32) (count : W48) (stamp : Nat) (sigA : BitVec 128) : Verdict where
  kind := kind
  task := t
  cycle := cycle
  count := count
  stamp := stamp
  tkStamp := none
  sigA := sigA
  sigB := none
  egA := []
  egB := []
  noRelease := false
  writes := []
  overrun := false
  stopped := false
  consec := 0
  close := 0
  sub := 0
  next := 0
  prevConsec := 0
  prevFb := 0
  sk := 0
  tk := 0
  replays := 0
  out := 0
  cyc := none
  fbRun := 0

/-- A checkpoint count is reached (R288): the CKPT record joins the running task's commit records (R281, R282), and the checkpoint
fold, which holds WRITE records alone, is sent and cleared.
DEDUCED, log entry 101. -/
def checkpoint (s : State) (l : LaneId) (t : Task) : State :=
  let k := match s.cht.charter with | some c => c.head.checkpoint | none => 0
  let x := s.lane l
  if k ≠ 0 ∧ x.count.toNat % k = 0 ∧ isPaired s then
    let fold := x.ckptFold
    let s1 := s.modLane l (fun y => { foldRecord y t (commitRecord 7 t x.ctx.pc.toNat) with ckptFold := BitVec.allOnes 128 })
    match l with
    | .a => { s1 with asy := { s1.asy with
        pend := s1.asy.pend ++ [Verdict.blank .ckpt t (cycleNumber s .a t) x.count s.seq.stamp fold] } }
    | .b => { s1 with asy := { s1.asy with
        pend := match firstIdx (fun v : Verdict => v.kind == .ckpt && v.count == x.count && v.sigB.isNone) s1.asy.pend with
          | some i => listModify s1.asy.pend i (fun v => { v with sigB := some fold })
          | none => s1.asy.pend } }
  else s

/-- Replay work remains (R175). -/
def LCycle.workLeft (c : LCycle) : Bool :=
  c.anyDirty || (c.hold == .run && (c.pass == .replay || c.pass == .resumed)) || (c.resumed && c.hold == .fence)

/-- The replay budget is reached with work remaining (R175). -/
def checkBudget (s : State) (l : LaneId) (t : Task) : State :=
  match s.cycle l t with
  | some c => if c.replayLimit ≠ 0 ∧ c.replayLimit ≤ c.replayCount ∧ c.workLeft then fallback s l t 5 else s
  | none => s

/-- The instruction counts in every count the lane keeps (R188, R219), and the record queue drains by one ASSAY clock's records (R284).
DESIGN CHOICE, log entry 95. -/
def countRetired (s : State) (l : LaneId) (t : Task) (stays : Bool) : State :=
  s.modLane l (fun x => ({ x with count := x.count + 1, stall := .none, stepOne := false, recq := x.recq - 4 }).modCycle t (fun c =>
    { c with
      elem := if stays then c.elem + 1 else 0
      replayCount := if c.pass == Pass.replay || c.pass == Pass.resumed then c.replayCount + 1 else c.replayCount
      insts := listModify c.insts c.cur (fun i => { i with length := i.length + 1 }) }))

/-- PC set within a block. -/
def setPc (s : State) (l : LaneId) (pc : Nat) : State :=
  s.modLane l (fun x => { x with ctx := { x.ctx with pc := BitVec.ofNat 20 pc } })

/-- An instruction retires (R151, R188, R229): counts advance and execution goes on. -/
def retire (l : LaneId) (t : Task) (flow : Flow) (s : State) : State :=
  let s1 := countRetired s l t (flow == .stay)
  let x := s1.lane l
  let pc := x.ctx.pc.toNat
  let len := progLength s l
  let within := fun target : Nat => decide (target < len) && blockIdx x.blocks target == blockIdx x.blocks pc
  let s2 := match flow with
    | .stay => s1
    | .seq => if within (pc + 1) then setPc s1 l (pc + 1) else leaveInstance s1 l t (pc + 1)
    | .branch target => if within target then setPc s1 l target else leaveInstance s1 l t target
    | .cross target => leaveInstance s1 l t target
  checkBudget (checkpoint s2 l t) l t

/-- The condition of a lane instruction (R187). -/
def condHolds (c : Cond) (x : Ctx) (fc fw : Bool) : Bool :=
  match c with
  | .al => true
  | .rs => x.rlr
  | .rc => !x.rlr
  | .eq => x.z
  | .ne => !x.z
  | .lt => x.n != x.v
  | .ge => x.n == x.v
  | .gt => !x.z && x.n == x.v
  | .le => x.z || x.n != x.v
  | .lo => !x.c
  | .hs => x.c
  | .vs => x.v
  | .vc => !x.v
  | .fc => fc
  | .fw => fw

/-- The check of an instruction fetch through S0 (R244).
DESIGN CHOICE, log entry 5. -/
def fetchCheck (s : State) (l : LaneId) : Option (Nat × Bool) :=
  let x := s.lane l
  match descOf s l x.ctx.sel[0] with
  | none => some (0x04, false)
  | some (i, d) =>
    if x.descPar.contains i then some (0x08, true)
    else if ¬ x.ctx.pc.toNat < d.limit then some (0x05, false)
    else if !d.flags.testBit 2 || d.kind == 8 then some (0x06, false)
    else if x.wordBad (d.base + x.ctx.pc.toNat) then some (0x08, false)
    else none

/-- What an instruction's decoding says before it executes: an encoding error (R188), a fence (R168), a branch target known at
decode, and an outside effect (R230). -/
structure Decoded where
  illegal : Bool := false
  fence : Bool := false
  target : Option Nat := none
  effect : Bool := false

/-- R171: a fence instruction or a branch into a lower-numbered block outside a fence block.
DEDUCED, log entry 21. -/
def unmarkedFence (x : Lane) (c : LCycle) (d : Decoded) : Bool :=
  let pc := x.ctx.pc.toNat
  let lower := match d.target with
    | some g => decide (blockIdx x.blocks g < blockIdx x.blocks pc)
    | none => false
  c.pass != .full && (d.fence || lower) && !isFenceAt x.blocks pc

/-- The exception that Lane A has taken at the count to which Lane B has come (R289). -/
def excHere (s : State) (l : LaneId) : Option PendExc :=
  if l == .b && isPaired s then s.asy.exc.filter (fun e => e.count == s.laneB.count + 1) else none

/-- Lane B meets the count at which Lane A took an exception or retired an outside effect, and does neither: the code, the task and
the cycle of the mismatch that is declared there (R289).
DEDUCED, log entry 19. -/
def oneSided (s : State) (l : LaneId) (effect : Bool) : Option (Nat × Task × W32) :=
  match excHere s l with
  | some e => some (4, e.task, e.cycle)
  | none =>
    if l == .b && isPaired s then
      match s.asy.effects with
      | e :: _ => if e.count == s.laneB.count + 1 && !effect then some (5, e.task, e.cycle) else none
      | [] => none
    else none

/-- Lane B waits before an outside effect while a checkpoint verdict is pending (R276). -/
def effectWaits (s : State) (l : LaneId) (effect : Bool) : Bool := effect && l == .b && isPaired s && checkpointPending s

/-- What an instruction answers before it retires: its fetch (R244), its encoding (R188), the fence rule (R171), its condition (R187),
then its body. -/
def attempt (l : LaneId) (t : Task) (cyc : LCycle) (c : Cond) (d : Decoded) (body : Task → LCycle → State → Run Flow) (s : State) :
    Run Flow :=
  match fetchCheck s l with
  | some (code, par) => .error (.exc code 0 par)
  | none =>
    if d.illegal then .error (.exc 0x01 0 false)
    else if unmarkedFence (s.lane l) cyc d then .error (.fall 6)
    else if !condHolds c (s.lane l).ctx cyc.fc cyc.fw then .ok (.seq, s)
    else if effectWaits s l d.effect then .error (.abandoned s)
    else body t cyc s

/-- One instruction of a lane. Where the lane may not retire, nothing happens. Lane B retires no instruction at the count of an exception
that Lane A alone has taken.
DESIGN CHOICE, log entry 5. -/
def laneStep (l : LaneId) (c : Cond) (d : Decoded) (body : Task → LCycle → State → Run Flow) (s : State) : State :=
  match missedCommit s l with
  | some u => laneMismatch s 1 u (cycleNumber s .b u) s.laneB.count
  | none =>
  match mayRetire s l with
  | none => s
  | some (t, cyc) =>
    match attempt l t cyc c d body s with
    | .ok (flow, s1) =>
      match oneSided s l (d.effect && condHolds c (s.lane l).ctx cyc.fc cyc.fw) with
      | some (code, u, k) => laneMismatch (if code = 4 then s else retire l t flow s1) code u k (s.laneB.count + 1)
      | none => retire l t flow s1
    | .error (.exc code elem par) => raise s l t code elem par
    | .error (.fall code) =>
      match excHere s l with
      | some e => laneMismatch s 4 e.task e.cycle e.count
      | none => fallback s l t code
    | .error (.abandoned s1) => s1
    | .error (.stall why) => s.modLane l (fun x => { x with stall := why })

/-- A lane instruction that only changes registers.
DESIGN CHOICE, log entry 5. -/
def ctxStep (l : LaneId) (c : Cond) (illegal : Bool) (f : Ctx → Except Nat Ctx) (s : State) : State :=
  laneStep l c { illegal := illegal } (fun _ _ s1 =>
    match f (s1.lane l).ctx with
    | .ok x => .ok (.seq, s1.modLane l (fun y => { y with ctx := x }))
    | .error code => .error (.exc code 0 false)) s

end Sys2Proof.Machine
end

