-- ==== Sys2Proof/Machine/MsgRam.lean ====
section
/-! DEFINITION. Writes to message RAM by trams, the Headframe and the host, with the parts of it that refuse them (R144, R405). -/

namespace Sys2Proof.Machine

open Sys2Proof

/-- Message RAM words of the edit queue area (R144): written by the hardware only. -/
def inEditQueue (a : Nat) : Bool := decide (6 * 16384 ≤ a) && decide (a ≤ 6 * 16384 + 0x80F)

/-- Word offset in message RAM of a mailbox of a bus (R33, R403). -/
def mbxBase (n : Bus) (m : Nat) : Nat := 16384 * (n.val + 1) + 40 * m

/-- STATE of a mailbox (R404, R408). -/
def mbxState (s : State) (n : Bus) (m : Nat) : Nat := bitsOf (memGet s.msg (mbxBase n m + 5)).toNat 2 0

/-- STATE codes of R408. -/
def mbPending : Nat := 1
def mbSending : Nat := 2

/-- A bus is named by an EGRESS record, so mailboxes 48-63 belong to the egress engine (R405). -/
def egressBus (s : State) (n : Bus) : Bool :=
  match s.cht.charter with
  | some c => c.egress.any (fun r => r.dst == 0 && r.unit == n.val)
  | none => false

/-- A mailbox belongs to the egress engine. -/
def egressMailbox (s : State) (n : Bus) (m : Nat) : Bool := egressBus s n && decide (48 ≤ m)

/-- The bus whose mailboxes hold a message RAM word, with the mailbox and the word in it (R403). -/
def mailboxWord (a : Nat) : Option (Bus × Nat × Nat) :=
  let bank := a / 16384
  let off := a % 16384
  if h : 1 ≤ bank ∧ bank ≤ 4 ∧ off < 0xA00 then some (⟨bank - 1, by omega⟩, off / 40, off % 40) else none

/-- Message RAM refuses a mailbox write (R405). -/
def mailboxRefuses (s : State) (n : Bus) (m w : Nat) : Bool :=
  let st := mbxState s n m
  egressMailbox s n m || (decide (5 ≤ w) && decide (w ≤ 7)) || st == mbPending || st == mbSending

def State.modMb (s : State) (n : Bus) (f : MbState → MbState) : State := { s with mb := vecModify s.mb n f }

/-- MBn.STAT.STATE codes (R419).
DESIGN CHOICE, log entry 67. -/
def BusPhase.code : BusPhase → Nat
  | .disabled => 0
  | .integrating => 1
  | .active => 2
  | .passive => 3
  | .busOff => 4
  | .recovering => 5

/-- The source block of a controller's events (R44).
DESIGN CHOICE, log entry 13. -/
def mbBlock (n : Bus) : Nat := 10 + n.val

/-- A condition of a controller's vector is notified through its seam, 5 to 8 (R418, R468). -/
def notifyBus (s : State) (n : Bus) : State := notifySeam s ⟨5 + n.val, by omega⟩

/-- A change of STATE, with its event and its condition of the vector (R418). -/
def setBusPhase (s : State) (n : Bus) (p : BusPhase) : State :=
  if (s.mb[n]).phase = p then s
  else
    let s1 := notifyBus (s.modMb n (fun x => { x with phase := p, stateChanged := true })) n
    postDev s1 0x0701 (mbBlock n) (leBytes 1 n.val ++ leBytes 1 p.code ++ leBytes 2 (s1.mb[n]).tec ++ leBytes 1 (s1.mb[n]).rec_)

/-- One word written by an agent other than the hardware that owns it. -/
def agentWrite (s : State) (a : Nat) (v : W16) : State :=
  if inEditQueue a then s
  else match mailboxWord a with
    | some (n, m, w) =>
      if mailboxRefuses s n m w then s.modMb n (fun x => { x with mbxDenied := true })
      else { s with msg := memSet s.msg a v }
    | none => { s with msg := memSet s.msg a v }

/-- Several words written from an address on. -/
def agentWrites (s : State) (a : Nat) (vs : List W16) : State :=
  ((List.range vs.length).zip vs).foldl (fun acc p => agentWrite acc (a + p.1) p.2) s

end Sys2Proof.Machine
end

