-- ==== Sys2Proof/Machine/Tram.lean ====
section
/-! DEFINITION. The trams (R248-R260, R271): descriptors, element transfer, and the TRM control ports. -/

namespace Sys2Proof.Machine

open Sys2Proof

/-- A channel is bound to its task where TASKS defines it, and to the Headframe otherwise (R248). -/
def taskOwned (s : State) (ch : TramCh) : Bool := (taskRec s ch).isSome

/-- One element read from message RAM: four words, the fourth ignored (R249, R36). -/
def ramElement (m : Mem 16) (a : Nat) : W36 :=
  (memGet m (a + 2)).setWidth 4 ++ memGet m (a + 1) ++ memGet m a

/-- One element written to message RAM, the fourth word as zero (R249). -/
def putElement (s : State) (a : Nat) (v : W36) : State :=
  agentWrites s a [v.extractLsb' 0 16, v.extractLsb' 16 16, v.extractLsb' 32 16, 0]

/-- A task's descriptor of four lane words (R250). -/
def taskDescriptor (ws : List W36) : TramDesc :=
  let w := fun i => (ws.getD i 0).toNat
  { srcOff := bitsOf (w 0) 17 0, srcSel := bitsOf (w 0) 20 18, srcRam := (w 0).testBit 21, srcLane := false, srcSeg := 0,
    dstOff := bitsOf (w 1) 17 0, dstSel := bitsOf (w 1) 20 18, dstRam := (w 1).testBit 21, irq := (w 1).testBit 22,
    count := bitsOf (w 2) 16 0, first := bitsOf (w 3) 16 0,
    clean := decide (w 0 < 2 ^ 22) && decide (w 1 < 2 ^ 23) && decide (w 2 < 2 ^ 17) && decide (w 3 < 2 ^ 17) }

/-- A Headframe channel's descriptor in message RAM bank 5 (R251). -/
def ramDescriptor (m : Mem 16) (ch : TramCh) : TramDesc :=
  let w := fun i => (memGet m (5 * 16384 + 16 * ch.val + i)).toNat
  { srcOff := w 0 + 2 ^ 16 * bitsOf (w 1) 1 0, srcSel := 0, srcRam := (w 1).testBit 2, srcLane := (w 1).testBit 3, srcSeg := w 2,
    dstOff := w 3 + 2 ^ 16 * bitsOf (w 4) 0 0, dstSel := 0, dstRam := true, irq := false,
    count := w 5 + 2 ^ 16 * bitsOf (w 6) 0 0, first := w 7 + 2 ^ 16 * bitsOf (w 8) 0 0,
    clean := decide (w 1 < 16) && decide (w 4 < 2) && decide (w 6 < 2) && decide (w 8 < 2) &&
      (List.range 7).all (fun i => w (9 + i) == 0) }

/-- Step 1 of R256. -/
def TramDesc.valid (d : TramDesc) : Bool :=
  d.clean && decide (1 ≤ d.count) && decide (d.count ≤ 65536) && decide (d.first < d.count) &&
    (!d.srcRam || d.srcOff % 4 == 0) && (!d.dstRam || d.dstOff % 4 == 0)

def State.modTram (s : State) (ch : TramCh) (f : TramSt → TramSt) : State :=
  { s with tram := { s.tram with ch := vecModify s.tram.ch ch f } }

/-- The end of a task's transfer reaches its lanes (R231, R278): Lane A at once, Lane B through the delivery list. -/
def tellTramDone (s : State) (t : Task) : State :=
  let free := fun l : Lane => l.modCycle t (fun c => { c with tramBusy := false })
  if isSplit s then s.modLane (taskLane s t) free
  else
    let s1 := s.modLane .a free
    { s1 with seq := { s1.seq with delivery := s1.seq.delivery ++ [(.tramDone t, s1.laneA.count)] } }

/-- A channel ends, complete or at a fault (R256-R258): the status, TRM.IRQ, and the owner is told. -/
def endTransfer (s : State) (ch : TramCh) (code : Nat) (k : Nat) : State :=
  let c := s.tram.ch[ch]
  let irq := c.irqEn && !taskOwned s ch || c.desc.irq && taskOwned s ch
  let s1 := s.modTram ch (fun x => { x with
    busy := false, fault := code != 0, done := code == 0, code := BitVec.ofNat 8 code, k := k, abortReq := false })
  let s2 := if irq then notifySeam { s1 with tram := { s1.tram with irq := s1.tram.irq ||| (1#16 <<< ch.val) } } 13 else s1
  if taskOwned s ch then tellTramDone s2 ch else s2

/-- A channel starts with a descriptor (R250, R251, R256 step 1). -/
def startTransfer (s : State) (ch : TramCh) (d : TramDesc) (count : W48) : State :=
  let s1 := s.modTram ch (fun x => { x with
    busy := true, fault := false, done := false, code := 0, k := d.first, desc := d, count := count, abortReq := false })
  if d.valid then s1 else endTransfer s1 ch 0x43 d.first

/-- The code of an element access through a descriptor of a lane (R257), 0 where it passes. -/
def tramCheck (s : State) (l : LaneId) (d : Option (Nat × SegRec)) (off : Nat) (write : Bool) (owner : Option Task) : Nat :=
  match d with
  | none => 0x04
  | some (i, g) =>
    if (s.lane l).descPar.contains i then 0x08
    else if g.limit ≤ off then 0x05
    else if !g.allows (!write) write then 0x06
    else if write && g.tracked then 0x41
    else if write && g.owner != (match owner with | some t => t.val | none => 256) then 0x42
    else if (s.lane l).wordBad (g.base + off) then 0x08
    else 0

/-- The descriptor of a Headframe channel's source segment. -/
def sourceSegment (s : State) (l : LaneId) (segId : Nat) : Option (Nat × SegRec) :=
  let table := descTable s l
  (firstIdx (fun d => d.segId == segId) table).bind (fun i => (table[i]?).map (fun d => (i, d)))

/-- A source word of a task's channel in one lane (R252): a tracked word as the owner's cycle saw it at its TSTART. -/
def tramSource (s : State) (l : LaneId) (t : Task) (d : SegRec) (a : Nat) : W36 :=
  let x := s.lane l
  if d.tracked then
    match x.cycle t with
    | some c => match c.shadow.find? (fun p => p.1 == a) with
      | some p => p.2
      | none => (trackedValue x t c a).1
    | none => x.store.committed a
  else memGet x.mem a

/-- A tracked source word meets a journal record that cannot be read (R161, R268). -/
def tramWalkFails (s : State) (l : LaneId) (t : Task) (d : SegRec) (a : Nat) : Bool :=
  d.tracked && (match s.cycle l t with
    | some c => !c.shadow.any (fun p => p.1 == a) && walkFails (s.lane l) t c a
    | none => false)

/-- What one lane says of a source: a fault code, or the word. -/
def sourceIn (s : State) (l : LaneId) (t : Task) (d : TramDesc) (i : Nat) : Nat × W36 :=
  let g := descOf s l ((taskSelectors s l t).toArray.getD d.srcSel 0)
  match tramCheck s l g (d.srcOff + i) false none, g with
  | 0, some (_, r) =>
    let a := r.base + d.srcOff + i
    if tramWalkFails s l t r a then (0x08, 0) else (0, tramSource s l t r a)
  | code, _ => (code, 0)

/-- What one lane says of a destination: a fault code, and the address. -/
def destIn (s : State) (l : LaneId) (t : Task) (d : TramDesc) (i : Nat) : Nat × Nat :=
  let g := descOf s l ((taskSelectors s l t).toArray.getD d.dstSel 0)
  (tramCheck s l g (d.dstOff + i) true (some t), match g with | some (_, r) => r.base + d.dstOff + i | none => 0)

/-- A descriptor parity error seen by a channel is shown (R245). -/
def tramParity (s : State) (l : LaneId) (g : Option (Nat × SegRec)) : State :=
  match g with
  | some (i, _) => if (s.lane l).descPar.contains i then noteParity s l else s
  | none => s

/-- LANE_DIFF (R255): the channel stops and the assay is told of a TRAM mismatch at the count of the TSTART. -/
def laneDiff (s : State) (ch : TramCh) (k : Nat) : State :=
  let n := s.tram.ch[ch].count
  let s1 := endTransfer s ch 0x44 k
  if isPaired s then laneMismatch s1 6 ch (cycleNumber s .a ch) n else s1

/-- The word of a message RAM side, with RAM_RANGE where the element extends beyond the RAM. -/
def ramSide (m : Mem 16) (off i : Nat) : Nat × W36 :=
  let a := off + 4 * i
  if 131071 < a + 3 then (0x40, 0) else (0, ramElement m a)

/-- A moved element advances the channel, which ends when COUNT is reached (R257). -/
def advanceTransfer (s : State) (ch : TramCh) : State :=
  let c := s.tram.ch[ch]
  if c.k + 1 = c.desc.count then endTransfer s ch 0 (c.k + 1) else s.modTram ch (fun x => { x with k := x.k + 1 })

/-- One element of a task-owned channel (R252, R255, R256).
DESIGN CHOICE, log entry 132. -/
def taskElement (s : State) (ch : TramCh) : State :=
  let c := s.tram.ch[ch]
  let d := c.desc
  let i := c.k
  let both := isPaired s
  let home := homeLane s ch
  let src := if d.srcRam then ramSide s.msg d.srcOff i else sourceIn s home ch d i
  let src' := if d.srcRam || !both then src else sourceIn s .b ch d i
  let dst := if d.dstRam then ((ramSide s.msg d.dstOff i).1, d.dstOff + 4 * i) else destIn s home ch d i
  let dst' := if d.dstRam || !both then dst else destIn s .b ch d i
  let desc := fun l n => descOf s l ((taskSelectors s l ch).toArray.getD n 0)
  let s0 := if d.srcRam then s else tramParity (if both then tramParity s .b (desc .b d.srcSel) else s) home (desc home d.srcSel)
  let s1 := if d.dstRam then s0 else tramParity (if both then tramParity s0 .b (desc .b d.dstSel) else s0) home (desc home d.dstSel)
  if src ≠ src' then laneDiff s1 ch i
  else if src.1 ≠ 0 then endTransfer s1 ch src.1 i
  else if dst ≠ dst' then laneDiff s1 ch i
  else if dst.1 ≠ 0 then endTransfer s1 ch dst.1 i
  else
    let s2 :=
      if d.dstRam then putElement s1 dst.2 src.2
      else if isSplit s then s1.modLane home (fun x => { x.rewrites dst.2 with mem := memSet x.mem dst.2 src.2 })
      else s1.modLanes (fun x => { x.rewrites dst.2 with mem := memSet x.mem dst.2 src.2 })
    advanceTransfer s2 ch

/-- One element of a Headframe-owned channel (R251, R252, R256). -/
def headframeElement (s : State) (ch : TramCh) : State :=
  let c := s.tram.ch[ch]
  let d := c.desc
  let i := c.k
  let l : LaneId := if d.srcLane then .b else .a
  let g := sourceSegment s l d.srcSeg
  let src : Nat × W36 :=
    if d.srcRam then ramSide s.msg d.srcOff i
    else
      let code := tramCheck s l g (d.srcOff + i) false none
      (code, match g with | some (_, r) => windowValue s l (r.base + d.srcOff + i) | none => 0)
  let s0 := if d.srcRam then s else tramParity s l g
  let dst := (ramSide s.msg d.dstOff i).1
  if src.1 ≠ 0 then endTransfer s0 ch src.1 i
  else if dst ≠ 0 then endTransfer s0 ch dst i
  else advanceTransfer (putElement s0 (d.dstOff + 4 * i) src.2) ch

/-- The busy channel served next, round-robin in ascending order (R260). -/
def nextChannel (s : State) : Option TramCh :=
  let order : List TramCh := (List.range 16).map (fun i => Fin.ofNat 16 (s.tram.last.val + 1 + i))
  order.find? (fun ch => (s.tram.ch[ch]).busy)

/-- The lanes that a channel's element reaches: both in paired mode for a task's channel. -/
def elementLanes (s : State) (ch : TramCh) : List LaneId :=
  let d := s.tram.ch[ch].desc
  if d.srcRam && d.dstRam then []
  else if !taskOwned s ch then [if d.srcLane then .b else .a]
  else if isPaired s then [.a, .b]
  else [homeLane s ch]

/-- TRAM_ELEMENT: the busy channel next in turn checks and moves one element, or stops where an abort was asked for. An access to a lane
opens the lane's gate (R460). -/
def execTramElement (s : State) : Out :=
  match nextChannel s with
  | none => .next s
  | some ch =>
    let s1 := (elementLanes s ch).foldl (fun acc l => openGate acc (laneIsland l)) { s with tram := { s.tram with last := ch } }
    .next (if (s.tram.ch[ch]).abortReq then endTransfer s1 ch 0x45 (s.tram.ch[ch]).k
           else if taskOwned s ch then taskElement s1 ch else headframeElement s1 ch)

/-- Address of TRM.CHn_CTL (R271). -/
def trmCtl (ch : TramCh) : Nat := 0x2C00 + 8 * ch.val + 3

/-- A control write to a task-owned channel is refused (R259).
DESIGN CHOICE, log entry 38. -/
def trmControl (s : State) (ch : TramCh) (effect : State → State) : State :=
  if taskOwned s ch then { s with tram := { s.tram with denied := true } } else effect s

/-- TRM GO (R251, R271): an idle Headframe channel starts from its bank-5 descriptor.
DESIGN CHOICE, log entry 120. -/
def trmGoEffect (s : State) (ch : TramCh) : State :=
  trmControl s ch (fun s1 => if (s1.tram.ch[ch]).busy then s1 else startTransfer s1 ch (ramDescriptor s1.msg ch) 0)

/-- TRM RESUME (R259): the descriptor is read again and the transfer starts at the element it stopped at.
DESIGN CHOICE, log entries 120, 131. -/
def trmResumeEffect (s : State) (ch : TramCh) : State :=
  trmControl s ch (fun s1 =>
    let c := s1.tram.ch[ch]
    if c.busy then s1 else startTransfer s1 ch { ramDescriptor s1.msg ch with first := c.k } 0)

/-- TRM ABORT (R271): a busy Headframe channel stops at its next element boundary. -/
def trmAbortEffect (s : State) (ch : TramCh) : State :=
  trmControl s ch (fun s1 => if (s1.tram.ch[ch]).busy then s1.modTram ch (fun x => { x with abortReq := true }) else s1)

/-- TRM_GO: a write of GO to a channel's control port (R251, R271). -/
def execTrmGo (ch : TramCh) (p : Bool) (s : State) : Out := .next (gatedWrite s (trmCtl ch) p (trmGoEffect · ch))
/-- TRM_RESUME: a write of RESUME (R259). -/
def execTrmResume (ch : TramCh) (p : Bool) (s : State) : Out := .next (gatedWrite s (trmCtl ch) p (trmResumeEffect · ch))
/-- TRM_ABORT: a write of ABORT (R271). -/
def execTrmAbort (ch : TramCh) (p : Bool) (s : State) : Out := .next (gatedWrite s (trmCtl ch) p (trmAbortEffect · ch))

end Sys2Proof.Machine
end

