-- ==== Sys2Proof/Machine/Clock.lean ====
section
/-! DEFINITION. Clocks, gates and seam cells (R445-R471), with what a start and the reset share of them. -/

namespace Sys2Proof.Machine

open Sys2Proof

def State.modClk (s : State) (f : ClkState → ClkState) : State := { s with clk := f s.clk }
def State.modSeam (s : State) (f : SeamState → SeamState) : State := { s with seam := f s.seam }

/-! ### Judging windows (R449) -/

/-- A count of reference edges in 1,024 RCREF cycles lies in the good range for a window of `w` percent (R449). -/
def goodWindow (w count : Nat) : Bool :=
  decide ((1024 * (100 - w) + 99) / 100 ≤ count) && decide (count ≤ 1024 * (100 + w) / 100)

/-- W of judging: XOSC_WIN once a charter is applied, 7 before that (R449). -/
def judgeWidth (s : State) : Nat := match s.cht.charter with | some c => c.head.xoscWin | none => 7

/-! ### Dividers and ramps (R454-R457) -/

/-- LANE_A and LANE_B of R57. -/
def isLaneIsland (i : Island) : Bool := i == 0 || i == 1

/-- One step of one island toward its target. -/
def rampOne (k : ClkState) (i : Island) : ClkState :=
  let cur := k.cur[i]
  let tgt := k.target[i]
  { k with cur := k.cur.set i (if cur < tgt then cur + 1 else if tgt < cur then cur - 1 else cur) }

/-- One ramp step: in paired mode the two lane ramps take their steps on the same root edges (R454, R456). -/
def rampStep (s : State) (i : Island) : State :=
  if isLaneIsland i && !isSplit s then s.modClk (fun k => rampOne (rampOne k 0) 1) else s.modClk (fun k => rampOne k i)

/-- The islands that a write to DIV_SETn sets (R456). -/
def divIslands (s : State) (i : Island) : List Island := if isLaneIsland i && !isSplit s then [0, 1] else [i]

/-- Targets set for several islands. -/
def setTargets (k : ClkState) (is : List Island) (d : Nat) : ClkState :=
  { k with target := is.foldl (fun (acc : Vector Nat 10) (i : Island) => acc.set i d) k.target }

/-- Controller `n` is enabled (R398): its BUSES record says so, and the part is starting or running. -/
def busEnabled (s : State) (n : Bus) : Bool :=
  (s.sys.state == .starting || s.sys.state == .running) &&
    (match s.cht.charter.bind (fun c => c.buses.find? (·.bus == n)) with | some b => b.flags.testBit 0 | none => false)

/-- A controller is enabled (R399). -/
def canEnabled (s : State) : Bool := (List.finRange 4).any (busEnabled s)

/-- A divider request is refused (R25, R457). -/
def divRefused (s : State) (i : Island) (d : Nat) : Bool :=
  decide (d < nominalDivs[i]) || (i == 8 && canEnabled s) || (i == 4 && linkUp s)

/-- A write of CLK.DIV_SETn (R454-R457). A target above 64 lies outside R454 and is ignored.
DESIGN CHOICE, log entry 38. -/
def divSetEffect (i : Island) (value : W16) (s : State) : State :=
  let d := bitsOf value.toNat 6 0
  if divRefused s i d then
    postDev (s.modClk (fun k => { k with divDenied := true })) 0x0103 1 (leBytes 1 i.val ++ leBytes 1 d)
  else if 64 < d then s
  else s.modClk (fun k => setTargets k (divIslands s i) d)

/-- CLK_DIV_SET: a write of CLK.DIV_SETn. -/
def execClkDivSet (i : Island) (value : W16) (p : Bool) (s : State) : Out :=
  .next (gatedWrite s (0x310 + i.val) p (divSetEffect i value))

/-! ### The reference watch (R451) and the forced switch (R452) -/

/-- REFERENCE_WATCH_WINDOW: a watch window ends while tasks run; every fourth window in a row outside the range is reported. -/
def execReferenceWatchWindow (count : BitVec 12) (s : State) : Out :=
  .next (inOneClock s (
    if s.sys.state = .running ∧ s.clk.ref ≠ 2 then
      let n := count.toNat
      if goodWindow s.clk.judgeWin n then s.modClk (fun k => { k with xcount := n, badRun := 0 })
      else if s.clk.badRun < 3 then s.modClk (fun k => { k with xcount := n, badRun := k.badRun + 1 })
      else detected (postDev (s.modClk (fun k => { k with xcount := n, badRun := 0, refBad := true })) 0x0102 1 (leBytes 2 n)) 6
    else s))

/-- FORCED_SWITCH: the reference mux has waited 16 cycles of the new source for an edge of the old one (R452). -/
def execForcedSwitch (s : State) : Out :=
  .next (
    match s.sys.phase with
    | .locking _ =>
      postDev (s.modClk (fun k => { k with forced := true })) 0x0101 1 (leBytes 1 s.clk.ref ++ leBytes 1 s.clk.newRef)
    | _ => s)

/-! ### Gates (R460, R461) -/

/-- GATE_OPEN: a request reaches a gate in CLOSING or CLOSED (R460). -/
def execGateOpen (i : Island) (s : State) : Out := .next (openGate s i)

/-- A write of CLK.GATE_DIS: the gates it names are kept open (R461). -/
def gateDisEffect (value : W16) (s : State) : State :=
  let keep : BitVec 10 := value.setWidth 10
  s.modClk (fun k => { k with
    gateDis := keep
    gate := Vector.ofFn (fun i : Fin 10 => if keep.getLsbD i.val then .open_ else k.gate[i]) })

/-! ### Stuck accesses (R465, R466) -/

/-- The domain of a requester, numbered as in R57. -/
def seamDomain : SeamRequester → Nat
  | .headframe _ => 5
  | .tram _ => 2
  | .host => 6
  | .lane .a => 0
  | .lane .b => 1

/-- The oldest access that a seam holds for the host port is withdrawn: a read returns zeros, a write has no effect (R465, R466).
DESIGN CHOICE, log entry 122. -/
def withdrawHost (s : State) : State :=
  match s.seam.held with
  | [] => { s with host := { s.host with lastRead := s.host.lastRead.map (fun _ => 0) } }
  | a :: rest =>
    let s1 := s.modSeam (fun k => { k with held := rest })
    match a with
    | .read _ n => { s1 with host := { s1.host with lastRead := List.replicate n 0 } }
    | .status => { s1 with host := { s1.host with lastRead := [0] } }
    | _ => s1

/-- Element at which the block instruction of a task's cycle stands, 0 where none is in progress (R219, R268). -/
def elementOf (s : State) (l : LaneId) (t : Task) : Nat := match (s.lane l).cycle t with | some c => c.elem | none => 0

/-- The bus error of a cancelled access, as its requester receives it (R466). -/
def seamBusError (s : State) (req : SeamRequester) : State :=
  match req with
  | .headframe addr => hfFault { s with wdt := { s.wdt with held := false } } 2 addr.toNat
  | .tram ch => if (s.tram.ch[ch]).busy then endTransfer s ch 0x46 (s.tram.ch[ch]).k else s
  | .host => withdrawHost s
  | .lane l =>
    match mayRetire s l with
    | some (t, _) => raise s l t 0x08 (elementOf s l t) false
    | none => s

/-- SEAM_STUCK_TIMEOUT: a request has reached SEAM.TIMEOUT clocks: it is cancelled, unless the destination latched it earlier. -/
def execSeamStuckTimeout (req : SeamRequester) (target : BitVec 4) (at_ : CancelPoint) (s : State) : Out :=
  .next (
    match at_ with
    | .latchedEarlier => s
    | _ =>
      let k := s.seam
      let s1 := s.modSeam (fun _ => { k with
        stuck := true
        stuckTarget := if k.stuck then k.stuckTarget else target.toNat
        stuckReq := if k.stuck then k.stuckReq else (seamDomain req)
        stuckCnt := sat16 k.stuckCnt 1 })
      inOneClock s (detected (seamBusError (postDev s1 0x0104 2 (leBytes 1 (seamDomain req) ++ leBytes 1 target.toNat)) req) 6))

/-! ### Pulse seams (R467-R469) -/

/-- A write of 1 to SEAM.PSTAT.OVR (R469). -/
def pstatClearEffect (s : State) : State :=
  s.modSeam (fun k => { k with pulse := vecModify k.pulse (Fin.ofNat 16 k.psel) (fun p => { p with ovr := false, lost := 0 }) })

/-- SEAM_PSTAT_CLEAR: OVR and LOST of the selected seam are cleared. -/
def execSeamPstatClear (p : Bool) (s : State) : Out := .next (gatedWrite s 0x405 p pstatClearEffect)

end Sys2Proof.Machine
end

