-- ==== Sys2Proof/Machine/Monitor.lean ====
section
/-! DEFINITION. The health monitors (R481-R487): samples, bins, limits and the HLT ports that act. -/

namespace Sys2Proof.Machine

open Sys2Proof

/-- The bin of a sample under a layout (R483). -/
def monBin (m : MonLayout) (v : Nat) : Nat :=
  if m.log2 then min 31 ((List.range 31).filter (fun i => decide (m.w * 2 ^ i ≤ v))).length
  else min 31 (v / m.w - m.o)

/-- A 32-bit counter that saturates (R481). -/
def satInc32 (v : W32) : W32 := if v = BitVec.allOnes 32 then v else v + 1

/-- One sample taken by a point (R481, R485): a sample above a limit sets its bit and is recorded. -/
def takeSample (s : State) (m : Point) (v : W32) : State :=
  let lay := s.hlt.layout[m]
  let d := s.hlt.data[m]
  let new : MonData := {
    min := if v.ult d.min then v else d.min
    max := if d.max.ult v then v else d.max
    last := v
    samples := satInc32 d.samples
    bins := vecModify d.bins (Fin.ofNat 32 (monBin lay v.toNat)) satInc32 }
  let s1 := { s with hlt := { s.hlt with data := s.hlt.data.set m new } }
  let lim := s.hlt.lim[m]
  if lim ≠ 0 ∧ lim.ult v then
    postDev (notifySeam { s1 with hlt := { s1.hlt with above := s1.hlt.above ||| (1#32 <<< m.val) } } 14) 0x0905 19
      (leBytes 1 m.val ++ leBytes 1 0 ++ leBytes 4 v.toNat)
  else s1

/-- A sample of a source and argument, taken by every point that names them (R481, R482). -/
def sampleSource (s : State) (source arg : Nat) (v : Nat) : State :=
  (List.finRange 32).foldl (fun acc m =>
    let lay := acc.hlt.layout[m]
    if lay.source = source ∧ lay.arg = arg then takeSample acc m (BitVec.ofNat 32 v) else acc) s

/-- The samples of a cycle whose commit is released (R482): Ck - Sk and Ck - Tk in ns, and its replay instructions; Ck lies `sub` ns after
the tick `close`. -/
def sampleCycle (s : State) (t : Task) (sk tk close : W72) (sub replays : Nat) : State :=
  let s1 := sampleSource s 1 t.val (1000 * (close - sk).toNat + sub)
  let s2 := sampleSource s1 2 t.val (1000 * (close - tk).toNat + sub)
  sampleSource s2 3 t.val replays

/-- The overrun counter of a task (R482). -/
def countOverrun (s : State) (t : Task) : State :=
  { s with hlt := { s.hlt with ovr := vecModify s.hlt.ovr t (fun v => if v = 0xFFFF then v else v + 1) } }

/-- A source whose samples are measured outside the state: a seam access, a frame's delay, a temperature, a rail. A cycle's samples come
with its release (R482), a canary's with its island's measurement, and source 0 has none (R481). -/
def sourceMeasured (source : Nat) : Bool := decide (4 ≤ source) && decide (source ≤ 7)

/-- MONITOR_SAMPLE: a point takes a sample of its source (R481).
DESIGN CHOICE, log entry 53. -/
def execMonitorSample (m : Point) (value : W32) (s : State) : Out :=
  .next (if sourceMeasured (s.hlt.layout[m]).source then takeSample s m value else s)

/-- HLT.SEL written: the selected point is captured (R485). -/
def hltSelEffect (s : State) (value : W16) : State :=
  let m : Point := Fin.ofNat 32 (value.toNat % 32)
  { s with hlt := { s.hlt with sel := m, buf := s.hlt.data[m] } }

/-- HLT.CLR written: the selected point is cleared (R485). -/
def hltClrEffect (s : State) : State := { s with hlt := { s.hlt with data := s.hlt.data.set s.hlt.sel MonData.init } }

/-- A SOURCE with an argument in its range (R481). -/
def sourceValid (source arg : Nat) : Bool :=
  match source with
  | 0 => arg == 0
  | 1 => decide (arg < 16)
  | 2 => decide (arg < 16)
  | 3 => decide (arg < 16)
  | 4 => decide (arg < 12)
  | 5 => decide (arg % 128 < 4)
  | 6 => decide (arg < 9)
  | 7 => decide (arg < 10)
  | 8 => decide (arg < 10)
  | _ => false

/-- A layout that R481 and R483 allow: W is 1 to 65,535, and O is 0 with log2 bins. -/
def layoutValid (source arg : Nat) (log2 : Bool) (w o : Nat) : Bool := sourceValid source arg && w != 0 && (!log2 || o == 0)

/-- HLT.XWIDTH_HI written: the new layout applies and its point is cleared, or it is denied (R486); the port keeps the value (R16). -/
def hltXwidthEffect (s0 : State) (value : W16) : State :=
  let s := { s0 with hlt := { s0.hlt with xwidthHi := value } }
  let src := s.hlt.xsrc.toNat
  let source := bitsOf src 15 12
  let log2 := src.testBit 11
  let arg := bitsOf src 7 0
  let w := s.hlt.xwidthLo.toNat
  if layoutValid source arg log2 w value.toNat then
    hltClrEffect { s with hlt := { s.hlt with layout := s.hlt.layout.set s.hlt.sel ⟨source, arg, log2, w, value.toNat⟩ } }
  else { s with hlt := { s.hlt with layoutDenied := true } }

/-- HLT_SEL: a write of HLT.SEL (R485). -/
def execHltSel (value : W16) (p : Bool) (s : State) : Out := .next (gatedWrite s 0x2600 p (hltSelEffect · value))

/-- HLT_CLR: a write of HLT.CLR (R485). -/
def execHltClr (p : Bool) (s : State) : Out := .next (gatedWrite s 0x2650 p hltClrEffect)

/-- HLT_XWIDTH_HI: an expert write of HLT.XWIDTH_HI (R486). -/
def execHltXwidthHi (value : W16) (p : Bool) (s : State) : Out := .next (gatedWrite s 0x2702 p (hltXwidthEffect · value))

end Sys2Proof.Machine
end

