-- ==== Sys2Proof/Machine/Age.lean ====
section
/-! DEFINITION. Ageing and margins (R472-R480): the canaries and ring oscillators, the stress-hour ledger, the margin plan and the
life prediction, with the lane rail fault (R553). -/

namespace Sys2Proof.Machine

open Sys2Proof

def State.modAge (s : State) (f : AgeState → AgeState) : State := { s with age := f s.age }

/-! ### Canaries (R472, R473) -/

/-- First canary of an island and their number: 8 in each lane, 4 in every other island (R472). -/
def canaryBase (i : Island) : Nat := if i.val < 2 then 8 * i.val else 16 + 4 * (i.val - 2)
def canaryCount (i : Island) : Nat := if i.val < 2 then 8 else 4

/-- The island of a canary. -/
def canaryIsland (c : Fin 48) : Island := if c.val < 16 then Fin.ofNat 10 (c.val / 8) else Fin.ofNat 10 (2 + (c.val - 16) / 4)

/-- An island's slack: the smallest among its canaries (R472). -/
def islandSlack (g : AgeState) (i : Island) : Nat :=
  ((List.range (canaryCount i)).map (fun k => (g.canary.toArray.getD (canaryBase i + k) 0).toNat)).foldl min 0xFFFF

/-- The slacks of an island's canaries, and its sample (R472, R481). -/
def measureIsland (s : State) (i : Island) (slacks : List W16) : State :=
  let s1 := s.modAge (fun g => { g with
    canary := (List.range (canaryCount i)).foldl (fun (acc : Vector W16 48) k =>
      acc.setIfInBounds (canaryBase i + k) (slacks.getD k 0)) g.canary })
  sampleSource s1 8 i.val (islandSlack s1.age i)

/-- All 48 canaries (R477). -/
def measureAll (s : State) (slacks : List W16) : State :=
  (List.finRange 10).foldl (fun acc i => measureIsland acc i (slacks.drop (canaryBase i))) s

/-- CANARY_MEASUREMENT: one canary in turn, so that no other is measured; the island's measurement is whole with its last canary (R473).
DESIGN CHOICE, log entry 50. -/
def execCanaryMeasurement (i : Fin 48) (ps : W16) (s : State) : Out :=
  .next (
    if i = s.age.canaryTurn then
      let s1 := s.modAge (fun g => { g with canary := g.canary.set i ps, canaryTurn := i + 1 })
      let n := canaryIsland i
      if i.val + 1 = canaryBase n + canaryCount n then sampleSource s1 8 n.val (islandSlack s1.age n) else s1
    else s)

/-- RING_OSCILLATOR_MEASUREMENT: the frequency loss of one island's pair, in turn (R473).
DESIGN CHOICE, log entry 50. -/
def execRingOscillatorMeasurement (i : Island) (ppm : W16) (s : State) : Out :=
  .next (if i = s.age.roTurn then s.modAge (fun g => { g with ro := g.ro.set i ppm, roTurn := i + 1 }) else s)

/-! ### What the pillar keeps (R474, R477, R490) -/

/-- MARGIN committed as one group (R490).
DESIGN CHOICE, log entry 53. -/
def persistMargin (s : State) : State :=
  (firmwareCommit s sysMargin (leBytes 8 (s.laneA.ldo + s.laneB.ldo * 2 ^ 8 + bit s.age.stepped * 2 ^ 16
    + (s.age.planAge / 3600 % 65536) * 2 ^ 32))).1

/-- The largest number below `acc + 2 ^ n` that keeps `(225 x) ^ 200` within `2 ^ e`, found bit by bit. -/
def accelRoot (e : Nat) : Nat → Nat → Nat
  | 0, acc => acc
  | n + 1, acc => accelRoot e n (if (225 * (acc + 2 ^ n)) ^ 200 ≤ 2 ^ e then acc + 2 ^ n else acc)

/-- AF of R474 in units of 2^-32 ledger units, a unit being 56.25 s: AF * 2^34 / 225 = 2^(e / 200 + 34) / 225, where TJ in quarter degrees
above -64 °C and V in mV give e = 5 (TJ - 676) + 4 (V - 800). The real value is rounded down or up.
DESIGN CHOICE, log entry 52. -/
def accelUnits (tj mv : Nat) : Nat := accelRoot (5 * tj + 4 * mv + 220) 64 0 + bit (Config.accelRoundUp tj mv)

/-- LEDGER_ACCUMULATE: a powered second, with the readings of the two lane sensors and of VDD_LA and VDD_LB, of which the higher count;
each unit passed increments the ledger by one gather commit (R474).
DESIGN CHOICE, log entry 52. -/
def execLedgerAccumulate (tj : Nat × Nat) (mv : Nat × Nat) (s : State) : Out :=
  .next (
    let sum := s.age.acc.toNat + accelUnits (max tj.1 tj.2) (max mv.1 mv.2)
    let units := sum / 2 ^ 32
    let s1 := s.modAge (fun g => { g with
      acc := BitVec.ofNat 32 sum, ledger := g.ledger + BitVec.ofNat 48 units, planAge := g.planAge + 1, powered := g.powered + 1 })
    let s2 := if units = 0 then s1 else (firmwareCommit s1 sysLedger (leBytes 8 s1.age.ledger.toNat)).1
    if s2.age.planAge % 3600 = 0 then persistMargin s2 else s2)

/-! ### The life prediction (R480) -/

/-- Days from the start of the year 2000 to the start of a year, and to a day.
DESIGN CHOICE, log entry 51. -/
def yearStart (y : Nat) : Nat := (List.range y).foldl (fun acc n => acc + (if leapYear n then 366 else 365)) 0
def Cal.dayNumber (c : Cal) : Nat :=
  yearStart c.year + ((List.range c.month).drop 1).foldl (fun acc m => acc + monthDays c.year m) 0 + c.day

/-- Slack lost between the plans of a log: from the end of each to the beginning of the next.
DESIGN CHOICE, log entry 50. -/
def slackLost (start fin : PlanLog → Nat) : List PlanLog → Int
  | p :: q :: r => (Int.ofNat (fin p) - Int.ofNat (start q)) + slackLost start fin (q :: r)
  | _ => 0

/-- Seconds between the first and the last plan of a log: the calendar days from each plan to the next, or the powered time between them
where TIME_VALID was 0 at either (R480).
DESIGN CHOICE, log entry 51. -/
def planSpan : List PlanLog → Int
  | p :: q :: r =>
    (match p.day, q.day with
    | some a, some b => 86400 * (Int.ofNat b - Int.ofNat a)
    | _, _ => Int.ofNat q.powered - Int.ofNat p.powered) + planSpan (q :: r)
  | _ => 0

/-- A lane's remaining life in 1/16 year, rounded down: headroom times elapsed time over slack lost, a year of 365.25 days. The
ledger hours of the two rates cancel. None where the formula has no value.
DESIGN CHOICE, log entry 51. -/
def laneLife (slack floor ldo vmax steps : Nat) (span gain lost : Int) : Option Nat :=
  let up := vmax - ldo
  if up ≠ 0 ∧ steps = 0 then none
  else
    -- headroom times `den`
    let den : Int := if steps = 0 then 1 else steps
    let head : Int := (Int.ofNat slack - Int.ofNat floor) * den + Int.ofNat up * gain
    let num := 16 * head * span
    let div := den * lost * 31557600
    if 0 ≤ head ∧ 0 < lost ∧ 0 < span then some (num / div).toNat else none

/-- A figure, free where the formula gives none.
DESIGN CHOICE, log entry 51. -/
def orFree (s : State) : Option Nat → State × Nat
  | some x => (s, x)
  | none => let f := s.takeFree; (f.1, (Config.freeLife f.2).toNat)

/-- AGE.LIFE after a plan (R480): 0xFFFF until 10 plans have run, then the smaller lane figure, free again where the field cannot hold it.
DESIGN CHOICE, log entry 51. -/
def predictLife (s : State) (vmax : Nat) : State × W16 :=
  let g := s.age
  if g.plans < 10 then (s, 0xFFFF)
  else
    let span := planSpan g.log
    let a := laneLife (islandSlack g 0) g.slackMin s.laneA.ldo vmax g.stepsA span g.gainA (slackLost (·.startA) (·.endA) g.log)
    let b := laneLife (islandSlack g 1) g.slackMin s.laneB.ldo vmax g.stepsB span g.gainB (slackLost (·.startB) (·.endB) g.log)
    let (s1, x) := orFree s a
    let (s2, y) := orFree s1 b
    let (s3, life) := orFree s2 (if min x y < 0xFFFF then some (min x y) else none)
    (s3, BitVec.ofNat 16 life)

/-! ### The margin plan (R476-R478) -/

/-- AGEING FLAGS, the LIFE threshold and VMAX of the charter in effect (R72, R477).
DESIGN CHOICE, log entry 53. -/
def ageFlag (s : State) (n : Nat) : Bool := match s.cht.charter with | some c => c.head.ageFlags.testBit n | none => false
def lifeThreshold (s : State) : Nat := match s.cht.charter with | some c => 16 * c.head.ageLife | none => 0
def ldoMax (s : State) : Nat := match s.cht.charter with | some c => c.head.ageVmax | none => 20

def planOf (s : State) (l : LaneId) : PlanLane := match l with | .a => s.age.planA | .b => s.age.planB

def setPlan (s : State) (l : LaneId) (p : PlanLane) : State :=
  s.modAge (fun g => match l with | .a => { g with planA := p } | .b => { g with planB := p })

/-- NO_MARGIN for an island (R477). -/
def noMargin (s : State) (i : Island) : State :=
  postDev (notifySeam (s.modAge (fun g => { g with noMargin := true })) 14) 0x0903 20
    (leBytes 1 i.val ++ leBytes 1 0 ++ leBytes 2 (islandSlack s.age i))

/-- What the plan does next with a lane that has been measured (R477): the LDO rises below the target; the first plan after
LEDGER_LOST lowers it while the slack stays 20 ps above; then the floor is checked. -/
def planNext (s : State) (l : LaneId) (mayLower : Bool) : State :=
  let slack := islandSlack s.age (laneIsland l)
  let ldo := (s.lane l).ldo
  if slack < s.age.slackTarget ∧ ldo < ldoMax s then setPlan s l (.stepDue false)
  else if mayLower ∧ s.age.slackTarget + 20 ≤ slack ∧ 0 < ldo then setPlan s l (.stepDue true)
  else if slack < s.age.slackMin ∧ ldoMax s ≤ ldo then
    if ageFlag s 1 ∧ s.clk.target[laneIsland l] = 2 then setPlan s l .dividerDue
    else setPlan (noMargin s (laneIsland l)) l .done
  else setPlan s l .done

/-- One entry of the PLAN_LOG ring committed; the manual gives its size and not its layout, so its bytes are free (R490).
DESIGN CHOICE, log entry 52. -/
def logPlanBytes (s : State) : State :=
  let bytes := (List.range 16).map (fun i => Config.freeByte (s.free + i))
  (firmwareCommit { s with free := s.free + 16 } (sysPlanLog + 16 * (s.age.plans % 180)) bytes).1

/-- The end of a plan, once both lanes are done: life, PLAN_AGE, the record of the plan (R477, R480).
DESIGN CHOICE, log entry 53. -/
def finishPlan (s : State) : State :=
  if s.age.planRun ∧ s.age.planA = .done ∧ s.age.planB = .done then
    let entry : PlanLog := {
      startA := s.age.startA, startB := s.age.startB, endA := islandSlack s.age 0, endB := islandSlack s.age 1
      ledger := s.age.ledger.toNat, powered := s.age.powered, day := if s.bkp.timeValid then some s.bkp.cal.dayNumber else none }
    let s1 := (logPlanBytes s).modAge (fun g => { g with
      log := (g.log ++ [entry]).drop (g.log.length + 1 - 180), plans := g.plans + 1, planRun := false, planA := .idle, planB := .idle
      planAge := 0, mayLower := false })
    let (s2, life) := predictLife s1 (ldoMax s1)
    let s3 := persistMargin (s2.modAge (fun g => { g with life := life }))
    let s4 := postDev s3 0x0902 20 (leBytes 1 s3.laneA.ldo ++ leBytes 1 s3.laneB.ldo ++ leBytes 1 (s3.clk.target[(0 : Island)]) ++
      leBytes 1 (s3.clk.target[(1 : Island)]) ++ leBytes 2 life.toNat ++ leBytes 2 (islandSlack s3.age 0) ++ leBytes 2 (islandSlack s3.age 1))
    if life.toNat < lifeThreshold s4 ∧ life ≠ 0xFFFF then
      postDev (notifySeam (s4.modAge (fun g => { g with lifeLow := true })) 14) 0x0904 20 (leBytes 2 life.toNat)
    else s4
  else s

/-- A plan may begin: AGEING FLAGS bit 0 is set, no plan runs (R476) and no power-fail warning stops it (R478).
DESIGN CHOICE, log entry 53. -/
def planMayStart (s : State) : Bool := ageFlag s 0 && !s.age.planRun && !s.pil.pfw

/-- A plan begins (R476, R477): every island is measured; the islands that are no lane are only reported.
DESIGN CHOICE, log entry 53. -/
def startPlan (s : State) (slacks : List W16) : State :=
  if planMayStart s then
    let s1 := measureAll (s.modAge (fun g => { g with planRun := true })) slacks
    let s2 := s1.modAge (fun g => { g with startA := islandSlack g 0, startB := islandSlack g 1 })
    let s3 := ((List.finRange 10).drop 2).foldl (fun acc i => if islandSlack acc.age i < acc.age.slackMin then noMargin acc i else acc) s2
    finishPlan (planNext (planNext s3 .a s3.age.mayLower) .b s3.age.mayLower)
  else s

/-- MARGIN_PLAN_DUE: 24 powered hours since the last plan, or a second after task start with LEDGER_LOST set (R476). The plan of that second
runs beside any plan that AGE.CMD asked for.
DESIGN CHOICE, log entry 53. -/
def execMarginPlanDue (slacks : List W16) (s : State) : Out :=
  .next (
    let lost := s.age.lostDue && s.sys.state == .running
    if planMayStart s && (decide (86400 ≤ s.age.planAge) || lost) then
      startPlan (if lost then s.modAge (fun g => { g with lostDue := false }) else s) slacks
    else s)

/-- AGE_CMD: a write of 0x4D50 to AGE.CMD (R476). -/
def execAgeCmd (slacks : List W16) (p : Bool) (s : State) : Out := .next (gatedWrite s 0x2807 p (startPlan · slacks))

/-- The plan's changes fall due: neither a recovery nor a role swap is in progress (R478). -/
def planMayChange (s : State) : Bool :=
  !s.asy.recovery && s.asy.rollback.isNone && s.pair.role != .handOut && s.pair.role != .handIn && !s.pil.pfw

/-- LDO_STEP: at a commit boundary a lane's LDO takes a step of 5 mV, and the codes are persisted (R477). -/
def execLdoStep (l : LaneId) (s : State) : Out :=
  .next (
    if planMayChange s then
      match planOf s l with
      | .stepDue down =>
        setPlan (persistMargin (s.modLane l (fun x => { x with ldo := if down then x.ldo - 1 else x.ldo + 1 }))) l (.remeasure down)
      | _ => s
    else s)

/-- The slack that a step upward has gained, for the prediction (R480). -/
def noteGain (s : State) (l : LaneId) (gain : Int) : State :=
  s.modAge (fun g => match l with
    | .a => { g with gainA := g.gainA + gain, stepsA := g.stepsA + 1 }
    | .b => { g with gainB := g.gainB + gain, stepsB := g.stepsB + 1 })

/-- LANE_REMEASURE: 20 µs after an LDO step the lane's canaries are measured again, and the plan goes on (R477). -/
def execLaneRemeasure (l : LaneId) (slacks : List W16) (s : State) : Out :=
  .next (
    match planOf s l with
    | .remeasure down =>
      let old := islandSlack s.age (laneIsland l)
      let s1 := measureIsland s (laneIsland l) slacks
      let now := islandSlack s1.age (laneIsland l)
      let s2 := if down then s1 else noteGain s1 l (Int.ofNat now - Int.ofNat old)
      finishPlan (planNext s2 l down)
    | _ => s)

/-- DIVIDER_STEP: at a commit boundary the lane's target divider becomes ÷3 and is persisted; in paired mode both lanes' (R477). -/
def execDividerStep (l : LaneId) (s : State) : Out :=
  .next (
    if planMayChange s ∧ planOf s l = .dividerDue then
      let is := divIslands s (laneIsland l)
      let s1 := persistMargin ((s.modClk (fun k => setTargets k is 3)).modAge (fun g => { g with stepped := true }))
      let s2 := setPlan s1 l .done
      finishPlan (if !isSplit s ∧ planOf s2 l.other = .dividerDue then setPlan s2 l.other .done else s2)
    else s)

/-- LANE_RAIL_FAULT: VDD_LA or VDD_LB more than 20 mV from its setting for 100 µs (R553, R609). -/
def execLaneRailFault (l : LaneId) (s : State) : Out :=
  .next (unitFault s 11 0xFF (match l with | .a => 0x400 | .b => 0x401))

end Sys2Proof.Machine
end

