-- ==== Sys2Proof/Machine/Release.lean ====
section
/-! DEFINITION. What leaves the part once a commit is released (R134, R138-R140, R286): egress blocks (R422, R428-R431), the field
die's command frame (R393), and the commit delta for the standby (R339, R340, R343). -/

namespace Sys2Proof.Machine

open Sys2Proof

/-! ### Egress blocks -/

/-- First image word in a lane's physical word space (R28). -/
def imageBase : Nat := 0x200000

/-- The EGRESS records of a task, in ascending block number (R138, R283). -/
def egressOf (s : State) (t : Task) : List EgrRec :=
  match s.cht.charter with
  | some c => (c.egress.filter (fun r => r.task == t)).mergeSort (fun a b => decide (a.block.val ≤ b.block.val))
  | none => []

/-- The record of an egress block. -/
def egressRec (s : State) (b : Block) : Option EgrRec := s.cht.charter.bind (fun c => c.egress.find? (·.block == b))

/-- The committed words of a block in a lane's image copy (R138). -/
def committedBlock (x : Lane) (r : EgrRec) : List W36 :=
  (List.range r.words).map (fun i => x.store.committed (imageBase + r.image + i))

/-- The EGRESS records of the blocks that a commit reads, folded in order (R282, R283). -/
def foldEgress (x : Lane) (t : Task) (egi : Bool) (blocks : List (Block × List W36)) : Lane :=
  blocks.foldl (fun acc p => ((List.range p.2.length).zip p.2).foldl (fun acc2 w =>
    foldRecord acc2 t (commitRecord 4 t (2 ^ 111 * bit egi + 2 ^ 100 * p.1.val + 2 ^ 94 * w.1 + w.2.toNat))) acc) x

/-- The block header of R422 with the packed words. -/
def blockRecord (claim : W32) (block : Nat) (seq : Nat) (index : Nat) (words : List W36) : List Byte :=
  let head := leBytes 4 claim.toNat ++ leBytes 2 (block + 512 * seq)
  let packed := words.flatMap packWord
  head ++ leBytes 2 (crc16 (leBytes 1 index ++ head ++ packed)).toNat ++ packed

/-- Data lengths of the DLC codes of an FD frame (R404). -/
def fdLengths : List Nat := [0, 1, 2, 3, 4, 5, 6, 7, 8, 12, 16, 20, 24, 32, 48, 64]

/-- Data bytes of a DLC (R404). -/
def dlcBytes (fdf : Bool) (dlc : BitVec 4) : Nat := if fdf then fdLengths.getD dlc.toNat 0 else min 8 dlc.toNat

/-- The smallest DLC that covers a number of bytes (R429). -/
def dlcFor (bytes : Nat) : BitVec 4 := BitVec.ofNat 4 ((firstIdx (fun n => decide (bytes ≤ n)) fdLengths).getD 15)

/-- Bytes padded with zeros. -/
def padTo (n : Nat) (bs : List Byte) : List Byte := bs ++ List.replicate (n - bs.length) 0

/-- The charter's settings of a bus (R67). -/
def busRec (s : State) (n : Bus) : Option BusRec := s.cht.charter.bind (fun c => c.buses.find? (·.bus == n))

/-- The rates in use as NOMINAL and DATA: the pair that rate detection accepted, or else the charter's (R414). -/
def busRates (s : State) (n : Bus) (r : BusRec) : Nat × Nat :=
  if s.mb[n].found then r.rates.getD s.mb[n].rateIdx (r.nominal, r.data) else (r.nominal, r.data)

/-- BRS is set in egress frames when the data rate exceeds the nominal rate (R429). -/
def busSwitches (s : State) (n : Bus) : Bool :=
  match busRec s n with | some r => decide ((busRates s n r).1 < (busRates s n r).2) | none => false

/-- The bus frames of one release of a block (R429). -/
def egressFrames (s : State) (r : EgrRec) (seq : Nat) (words : List W36) : List EgrFrame :=
  (List.range ((r.words + 10) / 11)).map (fun f =>
    let part := (words.drop (11 * f)).take 11
    let dlc := dlcFor (8 + 5 * part.length)
    { block := r.block
      frame := {
        id := BitVec.ofNat 29 (bitsOf r.key.toNat 28 0 + f)
        ide := r.key.getLsbD 31
        fdf := true
        brs := busSwitches s (Fin.ofNat 4 r.unit)
        esi := false
        rtr := false
        dlc := dlc
        data := padTo (dlcBytes true dlc) (blockRecord s.pair.claim r.block.val seq f part) } })

/-- The record of an egress block, made at its first release (R428). -/
def egrBlk (s : State) (b : Block) : EgrBlk :=
  match s.ing.egr.find? (fun p => p.1 == b) with
  | some p => p.2
  | none => ⟨0, 0, none, 0⟩

/-- A record kept under a block's number. -/
def putBlk {α : Type} (l : List (Block × α)) (b : Block) (v : α) : List (Block × α) :=
  match firstIdx (fun p => p.1 == b) l with
  | some i => l.set i (b, v)
  | none => l ++ [(b, v)]

/-- Size of a block record in a host mailbox (R427, R431). -/
def slotSize (words : Nat) : Nat := (8 + 5 * words + 3) / 4 * 4

/-- Kind of a host mailbox (R434, R443): 1 ingress, 2 egress, 0 service, as every mailbox is while no charter is in effect. -/
def hostKind (s : State) (m : Nat) : Nat :=
  match s.cht.charter with
  | some c =>
    if c.ingress.any (fun r => r.src == 1 && r.unit == m) then 1
    else if c.egress.any (fun r => r.dst == 1 && r.unit == m) then 2
    else 0
  | none => 0

/-- STATE of the egress mailboxes is EGRESS, and EMPTY of those that are none any more (R434). -/
def egressMailboxes (s : State) : State :=
  { s with msg := (List.range 8).foldl (fun acc m =>
    if hostKind s m = 2 then memSet acc (2048 * m) 5
    else if memGet acc (2048 * m) = 5 then memSet acc (2048 * m) 0 else acc) s.msg }

/-- HOST_INT is low while a DONE bit whose IRQEN bit is set is set (R435). -/
def hostLine (s : State) : State := { s with host := { s.host with intLow := (s.host.done &&& s.host.irqen) != 0 } }

/-- A DONE bit set. -/
def hostDone (s : State) (m : Nat) : State :=
  hostLine { s with host := { s.host with done := s.host.done ||| (1#8 <<< (m % 8)) } }

/-- A release written into its slot of an egress mailbox (R431). -/
def writeSlot (s : State) (r : EgrRec) (rec : List Byte) : State :=
  let before : List EgrRec := match s.cht.charter with
    | some c => c.egress.filter (fun x => x.dst == 1 && x.unit == r.unit && decide (x.block.val < r.block.val))
    | none => []
  let m := r.unit % 8
  let off := 4096 * m + 16 + (before.map (fun x => slotSize x.words)).sum
  let update := leNat (msgBytes s.msg (4096 * m + 4) 2)
  let slot := msgPut s.msg off (padTo (slotSize r.words) rec)
  hostDone { s with msg := msgPut slot (4096 * m + 4) (leBytes 2 ((update + 1) % 65536)) } m

/-- A mailbox's STATE set by the controller, with its TXDONE bit where it ends (R407, R408). -/
def mbxSetState (s : State) (n : Bus) (m : Nat) (st : Nat) : State :=
  let a := mbxBase n m + 5
  let w := (memGet s.msg a).toNat
  { s with msg := memSet s.msg a (BitVec.ofNat 16 (w / 8 * 8 + st)) }

/-- The frames of a block's earlier release withdrawn (R430): those queued, and those PENDING in an egress mailbox. -/
def withdrawFrames (s : State) (n : Bus) (b : Block) : State :=
  let queued := (s.ing.queue[n]).filter (fun f => f.block == b)
  let pend := (s.ing.loaded[n]).filter (fun p => p.2 == b && mbxState s n p.1.val == mbPending)
  let s1 := pend.foldl (fun acc p => mbxSetState acc n p.1.val 0) s
  { s1 with ing := { s1.ing with
    queue := vecModify s1.ing.queue n (fun q => q.filter (fun f => f.block != b))
    loaded := vecModify s1.ing.loaded n (fun l => l.filter (fun p => !pend.contains p))
    withdrawn := sat16 s1.ing.withdrawn (queued.length + pend.length) } }

/-- One block released (R335, R428): its sequence number is taken, and it is queued for its bus or written to its slot. -/
def releaseBlock (s : State) (b : Block) (words : List W36) : State :=
  match egressRec s b with
  | none => s
  | some r =>
    if !roleReleases s.pair.role then s
    else
      let k := egrBlk s b
      let s1 := { s with ing := { s.ing with
        egr := putBlk s.ing.egr b { seq := k.seq + 1, lastSeq := k.seq, last := some s.seq.ut, count := k.count + 1 } } }
      if r.dst = 0 then
        let n : Bus := Fin.ofNat 4 r.unit
        let s2 := withdrawFrames s1 n b
        { s2 with ing := { s2.ing with
          queue := vecModify s2.ing.queue n (fun q => q ++ egressFrames s2 r k.seq.toNat words) } }
      else writeSlot s1 r (blockRecord s1.pair.claim b.val k.seq.toNat 0 words)

/-! ### The command frame (R134, R393) -/

/-- Output bits of a committed image: bit n is the command for output channel Fnn (R65, R134).
DESIGN CHOICE, log entry 119. -/
def outputBits (s : State) (x : Lane) : W32 :=
  match s.cht.charter with
  | none => 0
  | some c =>
    (List.range 32).foldl (fun (acc : W32) i =>
      match c.field[i]? with
      | some f =>
        if 2 ≤ f.mode.toNat ∧ (x.store.committed (imageBase + f.word)).getLsbD f.bitix then acc ||| (1#32 <<< i) else acc
      | none => acc) 0

/-- The command frame of a released commit: it replaces one that still waits, and keeps its RELEASE (R393, R389). -/
def sendCommand (s : State) (out : W32) : State :=
  let stamp : W32 := BitVec.ofNat 32 s.seq.ut.toNat
  let held := match s.fld.waiting with | some w => w.release | none => false
  { s with fld := { s.fld with
    waiting := some ⟨out, stamp, held || s.fld.firstRelease⟩, out := out, stamp := stamp, firstRelease := false } }

/-! ### The delta (R339-R344) -/

/-- Bytes of a delta's payload (R343). -/
def deltaBytes (n : Nat) : Nat := 8 * n + 32

/-- The frames of a delta, at most 256 records each, the trailer in the last (R340), whose records leave the trailer's 32 bytes of the 2,048 that
LEN allows (R322). -/
def deltaFrames (trailer : Trailer) : Nat → List (Nat × W36) → List TxFrame
  | 0, recs => [.delta true recs (some trailer)]
  | fuel + 1, recs =>
    if recs.length ≤ 252 then [.delta true recs (some trailer)]
    else .delta false (recs.take 256) none :: deltaFrames trailer fuel (recs.drop 256)

/-- Words of every tracked segment other than IN, in ascending address order (R344). -/
def mirroredWords (s : State) : List Nat :=
  let segs := (descTable s .a).filter (fun d => d.tracked && d.kind != 0)
  let sorted := segs.mergeSort (fun a b => decide (a.base ≤ b.base))
  (sorted.flatMap (fun d => (List.range d.limit).map (d.base + ·))).eraseDups

/-- A resync starts, or starts again from its first word (R344).
DEDUCED, log entry 82. -/
def startResync (s : State) : State :=
  let ws := mirroredWords s
  { s with pair := { s.pair with resyncLeft := some ws, resyncSent := 0, resyncTotal := ws.length, mirror := .resync } }

/-- The mirrored state of the trailer's task is kept (R341, R348). -/
def noteTrailer (s : State) (tr : Trailer) : State :=
  if h : tr.task.toNat < 16 then { s with pair := { s.pair with mtasks := s.pair.mtasks.set tr.task.toNat (some tr) h } } else s

/-- A delta queued for the standby; one that does not fit is discarded, LAG is queued and a resync starts (R343). A part without a
link or a standby keeps the trailer alone, for a later hand token. -/
def queueDelta (s : State) (recs : List (Nat × W36)) (trailer : Trailer) : State :=
  let s0 := noteTrailer s trailer
  if !linkUp s || !(s.pair.role == .active || s.pair.role == .handOut) then s0
  else
    if 131072 < s0.pair.queueBytes + deltaBytes recs.length then
      let first := s0.pair.txSeq + BitVec.ofNat 32 s0.pair.txQueue.length
      startResync (queueFrame s0 (.lag first))
    else
      let s1 := (deltaFrames trailer recs.length recs).foldl queueFrame s0
      { s1 with pair := { s1.pair with queueBytes := s1.pair.queueBytes + deltaBytes recs.length } }

/-- What a released commit carries out (R286): its egress blocks, its command frame and its delta. -/
def releaseCommit (s : State) (blocks : List (Block × List W36)) (out : W32) (recs : List (Nat × W36)) (trailer : Trailer) :
    State :=
  let s1 := blocks.foldl (fun acc p => releaseBlock acc p.1 p.2) s
  queueDelta (sendCommand s1 out) recs trailer

end Sys2Proof.Machine
end

