-- ==== Sys2Proof/Machine/Tally.lean ====
section
/-! DEFINITION. The tally board (R301-R309): check-ins, checkpoint tokens, verdicts and their reactions. -/

namespace Sys2Proof.Machine

open Sys2Proof

/-- REACTION of a task's TALLY record, or the default of R62. -/
def tallyReaction (s : State) (t : Task) : Nat :=
  match s.cht.charter.bind (fun c => c.tally.find? (fun r => r.task == t)) with
  | some r => r.reaction
  | none => if isSplit s then 2 else 0

/-- The expected tokens of a task, NTOKENS of them (R61, R307). -/
def tallyTokens (s : State) (t : Task) : List W16 :=
  match s.cht.charter.bind (fun c => c.tally.find? (fun r => r.task == t)) with
  | some r => r.tokens.take r.ntokens
  | none => []

/-- The tokens a cycle holds, in program order (R170, R306). -/
def LCycle.tokens (c : LCycle) : List W16 := c.insts.flatMap (·.tokens)

def State.modTally (s : State) (t : Task) (f : TallySt → TallySt) : State :=
  { s with tly := { s.tly with task := vecModify s.tly.task t f } }

/-- A verdict of the board (R303, R307, R308): 1 DUP, 2 MISS, 3 SEQ. -/
def tallyVerdict (s : State) (t : Task) (cycle : W32) (kind pos : Nat) (got : W16) : State :=
  let reaction := tallyReaction s t
  let b := s.tly
  let mask : W16 := 1#16 <<< t.val
  let b1 := { b with
    dup := if kind = 1 then b.dup ||| mask else b.dup
    miss := if kind = 2 then b.miss ||| mask else b.miss
    seq := if kind = 3 then b.seq ||| mask else b.seq
    task := vecModify b.task t (fun x => { x with
      dupCount := if kind = 1 then sat16 x.dupCount 1 else x.dupCount
      missCount := if kind = 2 then sat16 x.missCount 1 else x.missCount
      seqCount := if kind = 3 then sat16 x.seqCount 1 else x.seqCount }) }
  let b2 := if b1.firstValid then b1 else { b1 with
    firstValid := true, firstKind := kind, firstTask := t.val, firstReaction := reaction, firstCyc := cycle, firstPos := pos,
    firstGot := got }
  postDev { s with tly := b2 } 0x0404 6
    (leBytes 1 kind ++ leBytes 1 t.val ++ leBytes 1 reaction ++ leBytes 1 0 ++ leBytes 4 cycle.toNat ++ leBytes 2 pos ++
      leBytes 2 got.toNat)

/-- The exception code of a verdict (R238). -/
def verdictCode (kind : Nat) : Nat := 0x23 + kind

/-- First position at which two token lists differ, with the token received there, 0 if none (R307). -/
def firstDiffer : Nat → List W16 → List W16 → Option (Nat × W16)
  | _, [], [] => none
  | i, [], g :: _ => some (i, g)
  | i, _ :: _, [] => some (i, 0)
  | i, e :: es, g :: gs => if e = g then firstDiffer (i + 1) es gs else some (i, g)

/-- What a check-in decides (R303, R307): the state with the verdict, and the verdict's kind where its reaction is a fault. -/
def checkIn (s : State) (t : Task) (cycle : W32) (enabled : Bool) (tokens : List W16) : State × Option Nat :=
  let b := s.tly.task[t]
  let react := fun (s1 : State) (kind : Nat) => (s1, if tallyReaction s t < 2 then some kind else none)
  if b.checkIns = 0 then
    let s1 := s.modTally t (fun x => { x with checkIns := 1, tokens := tokens })
    if tallyTokens s t = [] ∨ !enabled then (s1, none)
    else match firstDiffer 0 (tallyTokens s t) tokens with
      | some (pos, got) => react (tallyVerdict s1 t cycle 3 pos got) 3
      | none => (s1, none)
  else
    let s1 := s.modTally t (fun x => { x with checkIns := x.checkIns + 1, dupRaised := true })
    if b.dupRaised then (s1, none) else react (tallyVerdict s1 t cycle 1 0 0) 1

/-- What the board decides when a commit begins (R303, R307): TALLY_MISS, or TALLY_SEQ for tokens after the check-in. -/
def tallyAtCommit (s : State) (t : Task) (cycle : W32) (enabled : Bool) (tokens : List W16) : State × Option Nat :=
  let b := s.tly.task[t]
  let react := fun (s1 : State) (kind : Nat) => (s1, if tallyReaction s t < 2 then some kind else none)
  if b.checkIns = 0 then react (tallyVerdict s t cycle 2 0 0) 2
  else if tallyTokens s t = [] ∨ !enabled ∨ b.tokens ≠ tallyTokens s t then (s, none)
  else match tokens.drop b.tokens.length with
    | g :: _ => react (tallyVerdict s t cycle 3 b.tokens.length g) 3
    | [] => (s, none)

/-- The board at a cycle start (R303). -/
def tallyReset (s : State) (t : Task) : State :=
  s.modTally t (fun x => { x with checkIns := 0, dupRaised := false, tokens := [] })

/-- A task fault that a verdict raises when the commit of a cycle begins (R309): the commit completes, and the task or the part is
faulted. -/
def verdictFault (s : State) (t : Task) (cycle : W32) (kind : Nat) : State :=
  inOneClock s (
    let code := verdictCode kind
    let s0 := faultReport s false 3 t code (if isSplit s then some (taskLane s t) else none) cycle 0 0
    let s1 := postTask s0 0x0302 t.val (leBytes 1 t.val ++ leBytes 1 code ++ leBytes 4 cycle.toNat ++ leBytes 4 0)
    if isSplit s then s1.modTask t (fun k => { k with phase := .faulted })
    else if s.asy.unpaired then s1
    else unitFault s1 1 t.val code)

end Sys2Proof.Machine
end

