-- ==== Sys2Proof/Machine/Cycle.lean ====
section
/-! DEFINITION. Tasks and cycles (R111-R149): time, cycle starts, snapshot instants, overruns, commits in both lanes, pre-emption
and the context area (R261-R266), delivery to Lane B (R278), and edits (R144-R148). -/

namespace Sys2Proof.Machine

open Sys2Proof

/-! ### Time (R116) -/

/-- The periodic swap's timer counts while the part is ACTIVE and its partner, which is present, STANDBY and MIRRORED (R346). -/
def swapCounts (s : State) : Bool := s.pair.role == .active && s.pair.present && s.pair.prole == .standby && s.pair.pmirror == 2

/-- The ticks of the watchdog's clock within a microsecond (R316): two of the clock that is derived from the root, and one to three of
WDT_RC, which is accurate to 10 %.
DESIGN CHOICE, log entry 38. -/
def wdtTicks (s : State) : State × Nat :=
  match s.cht.charter.map (fun c => c.head.wdtClk) with
  | some 0 => let (s1, n) := s.takeFree; (s1, 1 + Config.freeNat n % 3)
  | _ => (s, 2)

/-- The watchdog counts within a microsecond (R311, R312). -/
def wdtTick (s : State) : State := if s.wdt.armed && !s.wdt.stopped then let (s1, n) := wdtTicks s; wdtCount s1 n else s

/-- The clocks of a microsecond at the seams, while the root runs: the round trips of the pulse seams that end in a clocked island return,
and a gate that is closing is closed (R459, R467).
DESIGN CHOICE, log entry 122. -/
def tickSeams (s : State) : State :=
  let s1 := returnSeams s false
  if s1.clk.lock then { s1 with clk := { s1.clk with gate := s1.clk.gate.map (fun g => if g = .closing then .closed else g) } } else s1

/-- TICK: the unit time advances by one microsecond while it runs, and the swap timer with it; the watchdog counts, the record queues
drain (R284), and a take that the power-fail warning put off is due again at the first tick after the warning clears (R610).
DESIGN CHOICE, log entries 95, 122. -/
def execTick (s : State) : Out :=
  .next (
    let sw := (tickSeams (wdtTick s)).modLanes (fun x => { x with recq := 0 })
    let s0 := if s.seq.running then { sw with seq := { sw.seq with ut := sw.seq.ut + 1 } } else sw
    let s1 := if s.seq.running && swapCounts s then { s0 with pair := { s0.pair with swapLeft := s0.pair.swapLeft.map (· - 1) } } else s0
    if s1.pair.retake.isSome && !s1.pil.pfw then
      { s1 with pair := { s1.pair with take := s1.pair.retake, retake := none } }
    else s1)

/-! ### Cycle starts and snapshot instants (R117, R118) -/

/-- What a cycle latches at its start (R118, R233, R270), with its OPEN record folded (R281, R282). -/
def mkCycle (s : State) (t : Task) (sk : W72) : LCycle :=
  let k := s.task t
  let tk := sk + BitVec.ofNat 72 (match taskRec s t with | some r => r.delta | none => 0)
  { number := k.number, sk := sk, tk := tk, tkStamp := none, fc := k.firstCycle, fw := k.firstCycle && k.firstWarm, insts := [],
    cur := 0, pass := .first, hold := .run, fresh := true, saved := false, fwd := 0, fwd13 := 0, fwd14 := 0, fwdHold := .run,
    resumed := false, replayCount := 0, replayLimit := k.replay.toNat, prevWrites := [], curWrites := [], truncated := false,
    elem := 0, reopened := false, svcOrd := 0,
    ovr := BitVec.ofNat 36 (min 255 k.consec + 256 * bit k.ovrWarn),
    fallback := BitVec.ofNat 36 (k.fbCode + 2 ^ 16 * k.fbCount),
    tokenEn := s.tly.tokenEn.getLsbD t.val,
    fold := crc128 (BitVec.allOnes 128) (commitRecord 1 t (k.number.toNat * 2 ^ 80 + tk.toNat)),
    nrec := 1, uw := [], tramBusy := false, tramStarted := false, tramDst := [], shadow := [],
    fwdCtx := Ctx.init, moved := [] }

/-- An entry put into the delivery list at Lane A's count (R278). -/
def deliver (s : State) (e : DEvent) : State :=
  if twoLanes s then { s with seq := { s.seq with delivery := s.seq.delivery ++ [(e, s.laneA.count)] } } else s

/-- The next event stamp taken (R127). -/
def takeStamp (s : State) : State × Nat := ({ s with seq := { s.seq with stamp := s.seq.stamp + 1 } }, s.seq.stamp)

/-- The passage of Tk reaches a lane (R124, R127). -/
def passTk (s : State) (l : LaneId) (t : Task) (stamp : Nat) : State :=
  dispatch (s.modCycle l t (fun c => { c with tkStamp := some stamp })) l

/-- The unit time reaches Tk: delivered to the leading lane at once, and to Lane B through the delivery list (R124). -/
def snapshot (s : State) (t : Task) : State :=
  let (s1, n) := takeStamp s
  deliver (passTk s1 (homeLane s t) t n) (.tkPassage t n)

/-- The unit time has reached the Tk of the task's open cycle, and its passage has not been delivered (R117, R127).
DESIGN CHOICE, log entry 95. -/
def snapshotDue (s : State) (t : Task) : Bool :=
  match s.cycle (homeLane s t) t with
  | some c => s.seq.running && c.tkStamp.isNone && c.tk.ule s.seq.ut && (s.task t).phase == .opened
  | none => false

/-- Every Tk that the unit time has reached is stamped: an event that comes now is stamped in its clock or later, and so stands after
it (R127).
DESIGN CHOICE, log entry 95. -/
def dueSnapshots (s : State) : State := allTasks.foldl (fun acc t => if snapshotDue acc t then snapshot acc t else acc) s

/-- The instant set for a task's next cycle start. -/
def startAt (k : TaskSt) : Option W72 :=
  match k.phase with
  | .ready a => some a
  | .skip a => some a
  | _ => none

/-- A cycle opened in its lanes (R118, R124). With DELTA = 0 it starts at its snapshot instant (R121). -/
def openCycle (s : State) (t : Task) (sk : W72) : State :=
  let c := mkCycle s t sk
  let s1 := s.modTask t (fun k => { k with phase := .opened, sk := sk, firstCycle := false, overrun := false, fbRun := 0 })
  let l := homeLane s t
  let s2 := if isSplit s || s.asy.unpaired then tallyReset s1 t else s1
  let s3 := deliver (s2.modLane l (fun x => { x with cycles := x.cycles.set t (some c) })) (.cycleStart t c)
  let s4 := if c.tk = sk then snapshot s3 t else s3
  -- a cycle that starts ends the measurement of a change of role (R355 HANDTIME)
  let s5 := match s4.pair.trigger with
    | some u => { s4 with pair := { s4.pair with trigger := none, handTime := min 0xFFFF (s4.seq.ut - u).toNat } }
    | none => s4
  dispatch s5 l

/-- CYCLE_START: a task's next start instant has come (R113, R119). A part that demotes itself has stopped its tasks (R338). -/
def execCycleStart (t : Task) (s : State) : Out :=
  .next (
    match startAt (s.task t) with
    | some a =>
      if s.seq.running && a.ule s.seq.ut && s.sys.state == .running && roleRuns s.pair.role && !s.pair.demoting &&
          !(s.lane (homeLane s t)).stopped && s.asy.rollback.isNone && (taskRec s t).isSome then
        openCycle s t s.seq.ut
      else s
    | none => s)

/-- SNAPSHOT_INSTANT: the unit time has reached the Tk of the task's open cycle (R117). -/
def execSnapshotInstant (t : Task) (s : State) : Out :=
  .next (if snapshotDue s t then snapshot s t else s)

/-! ### Overruns (R141, R142) -/

/-- An OVERRUN event that has just entered the queue of `s` awaits the close of the task's cycle (R141).
DESIGN CHOICE, log entry 17. -/
def markOpen (s : State) (t : Task) (before : Nat) : State :=
  let mark := fun e : EvItem => if e.code == 0x0301 then { e with awaits := some t } else e
  if before < s.evt.queue.length then
    { s with evt := { s.evt with queue := listModify s.evt.queue (s.evt.queue.length - 1) mark } }
  else s

/-- The OVERRUN event, opened at Sk + BUDGET and filled in at the close (R141).
DESIGN CHOICE, log entry 17. -/
def postOverrun (s : State) (t : Task) : State :=
  markOpen (postTask s 0x0301 t.val (leBytes 1 t.val ++ leBytes 1 0 ++ leBytes 4 (s.task t).number.toNat ++ leBytes 4 0)) t
    s.evt.queue.length

/-- A cycle overruns (R141): the warning is set, the monitors count, the event is opened, and the consecutive count rises; beyond
OVR_LIMIT it is a task fault (R142). -/
def overrun (s : State) (t : Task) : State :=
  inOneClock s (
    let s1 := countOverrun (s.modTask t (fun k => { k with ovrWarn := true, overrun := true, consec := k.consec + 1 })) t
    let s2 := postOverrun (notifySeam s1 15) t
    if taskNat s t (·.ovrLimit) < (s1.task t).consec then taskFault s2 t (s.task t).number 0x23 false none 3 0 0 else s2)

/-- OVERRUN: the open cycle has not closed by Sk + BUDGET (R141); a FAULTED part runs none (R560).
DESIGN CHOICE, log entry 17. -/
def execOverrun (t : Task) (s : State) : Out :=
  .next (
    let k := s.task t
    if k.phase == .opened && !k.overrun && s.seq.running && (budgetEnd s t).ule s.seq.ut && s.asy.rollback.isNone && s.pair.role != .faulted then
      overrun s t
    else s)

/-! ### Commits (R119-R121, R131-R134) -/

/-- The words a cycle has written in a lane, in ascending address order, with the values it leaves (R132, R339). -/
def cycleWrites (x : Lane) (t : Task) : List (Nat × W36) :=
  ((x.store.written t).mergeSort (· ≤ ·)).map (fun a => (a, x.store.ownValue t a))

/-- The words whose committed value a cycle's commit changes in a lane. -/
def commitChanges (x : Lane) (t : Task) : List (Nat × W36) := (cycleWrites x t).filter (fun p => x.store.committed p.1 != p.2)

/-- A cycle's commit in one lane (R131, R132, R138, R160): the lane, the blocks read, and the signature. With the CLOSE record the record
queue has drained (R284, R287).
DEDUCED, log entry 102. -/
def laneCommit (s : State) (x : Lane) (t : Task) (stamp : Nat) : Lane × List (Block × List W36) × BitVec 128 :=
  match x.cycle t with
  | none => (x, [], 0)
  | some c =>
    let x1 := x.withStore (x.store.commit t c.number stamp)
    let x2 := (commitChanges x t).foldl (fun acc p => acc.mark p.1) x1
    let blocks := (egressOf s t).map (fun r => (r.block, committedBlock x2 r))
    let x3 := foldEgress x2 t false blocks
    let n := match x3.cycle t with | some k => k.nrec + 1 | none => 0
    let x4 := foldRecord x3 t (commitRecord 6 t (c.number.toNat * 2 ^ 80 + n * 2 ^ 48))
    let sig := match x4.cycle t with | some k => k.fold | none => 0
    ({ (x4.dropVeins (fun v => v.task == t)).dropCycle t with recq := 0 }, blocks, sig)

/-- The lane after a commit: a cycle whose vein entries for a changed word cannot be read suffers a task fault (R268, R553). -/
def commitLane (s : State) (l : LaneId) (t : Task) (x1 : Lane) : State :=
  (commitChanges (s.lane l) t).foldl (fun acc p => markFaults acc l p.1) (s.modLane l (fun _ => x1))

/-- A cycle stands at its end with everything clean, so that its commit may begin (R121, R254). -/
def LCycle.atCommit (c : LCycle) : Bool := c.hold == .progEnd && c.tkStamp.isSome && !c.anyDirty && !c.tramBusy

/-- Lane A's egress words that each comparator holds until Lane B's matching words arrive (R285). -/
def heldWords (s : State) : Nat :=
  ((s.asy.pend.filter (fun v => v.sigB.isNone)).map (fun v => (v.egA.map (fun p => p.2.length)).sum)).sum

/-- A task is on its lane with its registers, and no task of higher priority has work (R122, R167, R173). -/
def onLane (s : State) (l : LaneId) (t : Task) : Bool :=
  (s.lane l).cur == some t && !outranked s l && (match s.cycle l t with | some c => !c.saved && !c.fresh | none => false)

/-- The commit of a task may begin (R120, R121, R167, R285), the edit that is due before it apart (R145). -/
def commitDue (s : State) (t : Task) : Bool :=
  let l := homeLane s t
  let x := s.lane l
  let floor := (s.task t).sk + BitVec.ofNat 72 (taskNat s t (·.floor))
  let words := ((egressOf s t).map (·.words)).sum
  (s.task t).phase == .opened && s.seq.running && floor.ule s.seq.ut && !x.stopped && s.asy.rollback.isNone && s.asy.exc.isNone &&
    s.pil.store != .copyDue && (match x.cycle t with | some c => c.atCommit | none => false) &&
    onLane s l t && (!isPaired s || decide (heldWords s + words ≤ 65536))

/-- Queued edits (R144). -/
def editCount (s : State) : Nat := (memGet s.msg (6 * 16384 + 2)).toNat

/-- A commit that ended with edits queued lets the oldest go first (R145). -/
def editBefore (s : State) : Bool := s.seq.editNext && decide (0 < editCount s)

/-- The commit of a task may begin (R121, R145). -/
def commitReady (s : State) (t : Task) : Bool := commitDue s t && !editBefore s

/-- Where in its microsecond a commit completes, in ns after the tick: free, and on the tick where it comes at Sk + BUDGET and is no
overrun (R119, R141).
DESIGN CHOICE, log entry 16. -/
def closeSub (s : State) (t : Task) : State × Nat :=
  if (s.task t).overrun || s.seq.ut.ult (budgetEnd s t) then
    let (s1, n) := s.takeFree
    (s1, Config.freeNat n % 1000)
  else (s, 0)

/-- The task's next start after a close `sub` ns after the present tick (R119, R142): the first tick at or after it counts, and a close on a
tick is at that tick.
DESIGN CHOICE, log entry 16. -/
def closeTask (s : State) (t : Task) (sub : Nat) : State :=
  s.modTask t (fun k =>
    let gap := taskNat s t (·.minGap)
    let first := if sub = 0 then s.seq.ut else s.seq.ut + 1
    { k with
      phase := if k.stopReq then .stopped
        else if k.overrun then .skip (first + BitVec.ofNat 72 (max (taskNat s t (·.budget)) gap))
        else .ready (first + BitVec.ofNat 72 gap)
      number := if k.overrun then k.number + 2 else k.number + 1
      consec := if k.overrun then k.consec else 0
      fbCode := k.fbRun
      stopReq := false })

/-- The next start instant that a trailer carries (R340).
DESIGN CHOICE, log entry 16. -/
def nextStart (k : TaskSt) : W72 := match startAt k with | some a => a | none => 0

/-- The commit trailer (R340). -/
def commitTrailer (v : Verdict) : Trailer where
  task := BitVec.ofNat 8 v.task.val
  overrun := v.overrun
  stopped := v.stopped
  consecutive := BitVec.ofNat 8 v.consec
  cycle := v.cycle
  close := v.close
  next := v.next
  records := BitVec.ofNat 32 v.writes.length

/-- Everything a commit releases leaves at once (R139, R149, R299). -/
def releaseNow (s : State) (v : Verdict) : State :=
  if v.noRelease || (s.asy.unpaired && !s.asy.debugOut) then s
  else sampleCycle (releaseCommit s v.egA v.out v.writes (commitTrailer v)) v.task v.sk v.tk v.close v.sub v.replays

/-- COMMIT: the commit set becomes visible in one sequencer event (R131). In paired mode its verdict is awaited and Lane B is to
commit at the same count; otherwise it is released at once.
DESIGN CHOICE, log entries 16, 119. -/
def commitTask (s : State) (t : Task) : State :=
  let l := homeLane s t
  let x := s.lane l
  match x.cycle t with
  | none => s
  | some c =>
    let k := s.task t
    let (s0, stamp) := takeStamp (closeSub s t).1
    let sub := (closeSub s t).2
    let writes := cycleWrites x t
    let (x1, blocks, sig) := laneCommit s x t stamp
    let s1 := commitLane s0 l t x1
    let s2 := fillOverrun s1 t
    let s3 := closeTask s2 t sub
    let v : Verdict := { Verdict.blank .commit t c.number x.count stamp sig with
      tkStamp := c.tkStamp, egA := blocks, writes := writes, overrun := k.overrun, stopped := k.stopReq,
      consec := min 255 (s3.task t).consec, close := s.seq.ut, sub := sub, next := nextStart (s3.task t), prevConsec := k.consec,
      prevFb := k.fbCode, sk := c.sk, tk := c.tk, replays := c.replayCount, out := outputBits s x1, cyc := some c,
      fbRun := k.fbRun }
    let s4 := deliver { s3 with seq := { s3.seq with editNext := decide (0 < editCount s3) } } (.commitDone t)
    if isPaired s then dispatch { s4 with asy := { s4.asy with pend := s4.asy.pend ++ [v] } } l
    else
      let (s5, kind) := tallyAtCommit s4 t c.number c.tokenEn c.tokens
      let s6 := releaseNow s5 { v with noRelease := kind.isSome }
      dispatch (match kind with | some n => verdictFault s6 t c.number n | none => s6) l

/-- COMMIT of a task, once R121 allows it. -/
def execCommit (t : Task) (s : State) : Out := .next (if commitReady s t then commitTask (dueSnapshots s) t else s)

/-! ### Lane B (R124, R133, R137, R276, R278) -/

/-- An entry of the delivery list received by Lane B. A commit completion is not received: Lane B makes its own commit. -/
def receive (s : State) (e : DEvent) : State :=
  match e with
  | .cycleStart t c => dispatch ((if s.asy.unpaired then s else tallyReset s t).modLane .b (fun x => { x with cycles := x.cycles.set t (some c) })) .b
  | .tkPassage t n => passTk s .b t n
  | .preempt => s.modLane .b (fun x => { x with preReq := true })
  | .words ws n => dispatch (laneEvents .b n ws s) .b
  | .commitDone _ => s
  | .tramDone t => s.modCycle .b t (fun c => { c with tramBusy := false })

/-- The oldest entry of the delivery list removed. -/
def popDelivery (s : State) : State := { s with seq := { s.seq with delivery := s.seq.delivery.drop 1 } }

/-- LANE_B_DELIVERY: Lane B has reached the count of the oldest entry (R278). -/
def execLaneBDelivery (s : State) : Out :=
  .next (
    match s.seq.delivery with
    | (.commitDone _, _) :: _ => s
    | (e, n) :: _ => if n = s.laneB.count ∧ twoLanes s then receive (popDelivery s) e else s
    | [] => s)

/-- Lane B's commit of the same cycle (R133), its comparison data, and the tally's decision (R303). In a part that a debug session has
unpaired the board follows Lane A (R299). -/
def commitLaneB (s : State) (t : Task) (c : LCycle) : State :=
  let i := firstIdx (fun v : Verdict => v.kind == .commit && v.task == t && v.count == s.laneB.count && v.sigB.isNone) s.asy.pend
  let stamp := match i.bind (fun n => s.asy.pend[n]?) with | some v => v.stamp | none => s.seq.stamp
  let (x1, blocks, sig) := laneCommit s s.laneB t stamp
  let s1 := popDelivery (commitLane s .b t x1)
  let (s2, kind) := if s.asy.unpaired then (s1, none) else tallyAtCommit s1 t c.number c.tokenEn c.tokens
  let s3 := match i with
    | some n => { s2 with asy := { s2.asy with pend := listModify s2.asy.pend n (fun v =>
        { v with sigB := some sig, egB := blocks, noRelease := v.noRelease || kind.isSome }) } }
    | none => s2
  match kind with
  | some n => verdictFault s3 t c.number n
  | none => dispatch s3 .b

/-- LANE_B_COMMIT: Lane B commits at the count at which Lane A did (R133, R276). A commit that Lane B alone would begin is a SIG
mismatch (R289). -/
def execLaneBCommit (t : Task) (s : State) : Out :=
  .next (
    match s.laneB.cycle t with
    | none => s
    | some c =>
      if !twoLanes s || !c.atCommit || s.laneB.cur != some t || c.saved || s.laneB.stopped || s.asy.rollback.isSome ||
          commitPending s || checkpointPending s || preemptDue s .b then s
      else match s.seq.delivery with
        | (.commitDone u, n) :: _ =>
          if n = s.laneB.count then
            if u = t then commitLaneB s t c else s
          else if isPaired s ∧ 0 < lead s then laneMismatch s 1 t c.number s.laneB.count else s
        | (_, n) :: _ =>
          if n ≠ s.laneB.count ∧ isPaired s ∧ 0 < lead s then laneMismatch s 1 t c.number s.laneB.count else s
        | [] => if isPaired s ∧ 0 < lead s then laneMismatch s 1 t c.number s.laneB.count else s)

/-! ### Pre-emption and the context area (R261-R266) -/

/-- The CTX segment of a task on a lane, with its descriptor index. -/
def ctxSegment (s : State) (l : LaneId) (t : Task) : Option (Nat × SegRec) :=
  (taskRec s t).bind (fun r => sourceSegment s l r.ctxSeg)

/-- Words +0 to +21 of the save area with VALID set (R262). -/
def contextWords (x : Ctx) (number : W32) (t : Task) : List W36 :=
  let pick := fun (lo : Nat) => (List.range 4).foldl (fun acc j => acc + 2 ^ (9 * j) * (x.sel.toArray.getD (lo + j) 0).toNat) 0
  let stack := x.stack.reverse
  let bits := ((List.range stack.length).zip stack).foldl (fun acc p => acc + 2 ^ p.1 * bit p.2) 0
  x.x.toList ++ [
    BitVec.ofNat 36 (x.pc.toNat + 2 ^ 20 * bit x.rlr + 2 ^ 21 * bit x.v + 2 ^ 22 * bit x.c + 2 ^ 23 * bit x.z + 2 ^ 24 * bit x.n +
      2 ^ 25 * stack.length + 2 ^ 29 * bit x.atEnd),
    BitVec.ofNat 36 bits, BitVec.ofNat 36 (pick 0), BitVec.ofNat 36 (pick 4), number.setWidth 36, BitVec.ofNat 36 (t.val + 16)]

/-- The CRC word +22 over words +0 to +21 (R262). -/
def contextCrc (ws : List W36) : W36 := (crc32c ((ws.take 22).flatMap packWord)).setWidth 36

/-- The whole save area. -/
def saveArea (x : Ctx) (number : W32) (t : Task) : List W36 :=
  let ws := contextWords x number t
  ws ++ [contextCrc ws, 0]

/-- A context save (R263): the area is written as 12 double words and read back, or CTX_SAVE, a double fault (R266). -/
def saveContext (s : State) (l : LaneId) (t : Task) (c : LCycle) : State :=
  let x := s.lane l
  match ctxSegment s l t with
  | none => taskFault s t c.number 0x20 true (some l) 3 0 0
  | some (i, d) =>
    if d.base % 2 = 1 ∨ d.limit < 24 ∨ x.descPar.contains i then
      taskFault (if x.descPar.contains i then noteParity s l else s) t c.number 0x20 true (some l) 3 0 0
    else
      let s1 := s.modLane l (fun y => { y with
        mem := memWriteSeq y.mem d.base (saveArea y.ctx c.number t)
        single := y.single.filter (fun a => decide (a < d.base) || decide (d.base + 24 ≤ a)) })
      if (List.range 24).any (fun j => x.wordBad (d.base + j)) then taskFault s1 t c.number 0x20 true (some l) 3 0 0
      else s1.modLane l (fun y => (({ y with cur := none, stall := .none, preReq := false }).modCycle t
          (fun k => { k with saved := true })))

/-- The lane is given up by its task (R123, R261): the read set is flushed and the context saved; a cycle that is to be executed
in full has no context to save. -/
def giveUpLane (s : State) (l : LaneId) (t : Task) (c : LCycle) : State :=
  let bare := fun s0 : State => s0.modLane l (fun y => { y with cur := none, stall := .none, preReq := false })
  if c.hold == .waitFull then bare s
  else match (s.lane l).flush with
    | none => bare (fallback s l t 1)
    | some x => saveContext (s.modLane l (fun _ => x)) l t c

/-- The running task has lost its work and another has some: the lane gives itself to that one (R122). Each lane decides so by itself,
with no request.
DEDUCED, log entry 103. -/
def yields (s : State) (l : LaneId) : Bool :=
  let x := s.lane l
  match x.cur.bind x.cycle, x.pick with
  | some c, some _ => !c.hasWork
  | _, _ => false

/-- The lane is to change its task at its instruction boundary (R122, R123): pre-empted, or because its task has no work. -/
def switchDue (s : State) (l : LaneId) : Bool := outranked s l || yields s l

/-- PRE_EMPTION: the lane is taken at an instruction boundary by the highest-priority task with work (R122, R123). The request of a
pre-emption goes to Lane B for the same count (R124, R278); one that finds the task already on the lane ends there.
DEDUCED, log entry 103. -/
def execPreEmption (l : LaneId) (s : State) : Out :=
  .next (
    let x := s.lane l
    match x.cur.bind (fun t => (x.cycle t).map (fun c => (t, c))) with
    | some (t, c) =>
      if x.stopped || x.halted || s.asy.rollback.isSome then s
      else if switchDue s l then
        let s1 := giveUpLane s l t c
        dispatch (if leads s l && !yields s l then deliver s1 .preempt else s1) l
      else if leads s l then s
      else s.modLane l (fun y => { y with preReq := false })
    | none => if leads s l then s else s.modLane l (fun y => { y with preReq := false }))

/-- The checks of a restore (R264). -/
def contextValid (s : State) (l : LaneId) (t : Task) (c : LCycle) (ws : List W36) : Bool :=
  let w := fun i => (ws.getD i 0).toNat
  let sels := (taskSelectors s l t).toList
  let saved := (List.range 8).map (fun j => BitVec.ofNat 9 (w (18 + j / 4) / 2 ^ (9 * (j % 4)) % 512))
  let pc := bitsOf (w 16) 19 0
  let atEnd := (w 16).testBit 29
  (w 21).testBit 4 && contextCrc ws == ws.getD 22 0 && bitsOf (w 21) 3 0 == t.val && bitsOf (w 20) 31 0 == c.number.toNat &&
    saved == sels && decide (bitsOf (w 16) 28 25 ≤ 8) && (if atEnd then pc == 0 else decide (pc < progLength s l))

/-- The registers that a save area holds (R262). -/
def contextOf (s : State) (l : LaneId) (t : Task) (ws : List W36) : Ctx :=
  let w := fun i => (ws.getD i 0).toNat
  { x := Vector.ofFn (fun i : Fin 16 => ws.getD i.val 0)
    rlr := (w 16).testBit 20
    stack := ((List.range (bitsOf (w 16) 28 25)).map (fun i => (w 17).testBit i)).reverse
    n := (w 16).testBit 24, z := (w 16).testBit 23, c := (w 16).testBit 22, v := (w 16).testBit 21
    sel := taskSelectors s l t
    pc := BitVec.ofNat 20 (bitsOf (w 16) 19 0)
    atEnd := (w 16).testBit 29 }

/-- A restore (R264): the descriptor and every word are checked before any value enters the lane (R244, R245), and word +21 is written with VALID =
0; else CTX_DESC, a double fault (R266). -/
def restoreContext (s : State) (l : LaneId) (t : Task) (c : LCycle) : State :=
  let x := s.lane l
  match ctxSegment s l t with
  | none => taskFault s t c.number 0x21 true (some l) 3 0 0
  | some (i, d) =>
    let ws := memWords x.mem d.base 24
    if x.descPar.contains i then taskFault (noteParity s l) t c.number 0x21 true (some l) 3 0 0
    else if d.limit < 24 || (List.range 24).any (fun j => x.wordBad (d.base + j)) || !contextValid s l t c ws then
      taskFault s t c.number 0x21 true (some l) 3 0 0
    else s.modLane l (fun y => ({ y with
      single := y.single.filter (fun a => decide (a < d.base) || decide (d.base + 24 ≤ a))
      mem := memSet y.mem (d.base + 21) (BitVec.ofNat 36 t.val), cur := some t, ctx := contextOf s l t ws }).modCycle t
        (fun k => { k with saved := false }))

/-- CONTEXT_RESTORE: an idle lane resumes the highest-priority task with work, where its context is saved (R264, R265). -/
def execContextRestore (l : LaneId) (s : State) : Out :=
  .next (
    let x := s.lane l
    match x.cur, x.pick with
    | none, some t =>
      match x.cycle t with
      | some c => if c.saved && !x.stopped && s.asy.rollback.isNone then restoreContext s l t c else s
      | none => s
    | _, _ => s)

/-! ### The edit queue (R143-R148) -/

/-- First message RAM word of the edit queue (R144). -/
def editBase : Nat := 6 * 16384

/-- A control word of the edit queue: HEAD 0, TAIL 1, COUNT 2, POSTED 3, APPLIED 4. -/
def editWord (s : State) (i : Nat) : Nat := (memGet s.msg (editBase + i)).toNat

/-- An entry of the edit queue. -/
structure EditEnt where
  addr : Nat
  lanes : Nat
  new : W36
  deriving DecidableEq, Repr

/-- The entry at an index of the queue (R144). -/
def editEntry (s : State) (i : Nat) : EditEnt :=
  let w := fun j => editWord s (0x10 + 8 * i + j)
  ⟨w 0 + 2 ^ 16 * bitsOf (w 1) 5 0, bitsOf (w 1) 7 6, BitVec.ofNat 36 (w 2 + 2 ^ 16 * w 3 + 2 ^ 32 * bitsOf (w 4) 3 0)⟩

/-- Words of the edit queue written by the hardware. -/
def editPut (s : State) (ws : List (Nat × Nat)) : State :=
  { s with msg := memWrites s.msg (ws.map (fun p => (editBase + p.1, BitVec.ofNat 16 p.2))) }

/-- The words that an entry is stored as (R144). -/
def entryWords (i : Nat) (e : EditEnt) (st : Nat) : List (Nat × Nat) :=
  let b := 0x10 + 8 * i
  [(b, e.addr % 65536), (b + 1, e.addr / 65536 % 64 + 64 * e.lanes + 256 * st), (b + 2, e.new.toNat % 65536),
   (b + 3, e.new.toNat / 65536 % 65536), (b + 4, e.new.toNat / 2 ^ 32)]

/-- An edit posted at the tail (R144); the queue has room. -/
def postEdit (s : State) (e : EditEnt) : State :=
  let tail := editWord s 1
  editPut s (entryWords tail e 1 ++ [(0x10 + 8 * tail + 5, 0), (0x10 + 8 * tail + 6, 0), (0x10 + 8 * tail + 7, 0),
    (1, (tail + 1) % 256), (2, editWord s 2 + 1), (3, (editWord s 3 + 1) % 65536)])

/-- The delivery list is full (R279). -/
def deliveryFull (s : State) : Bool := twoLanes s && decide (8192 ≤ s.seq.delivery.length)

/-- A lane that an edit enters (R147). -/
def editLane (s : State) (lanes : Nat) : LaneId := if isSplit s && !lanes.testBit 0 then .b else .a

/-- The oldest queued edit applied as its own event (R145-R148). -/
def applyEdit (s : State) : State :=
  let head := editWord s 0
  let e := editEntry s head
  let l := editLane s e.lanes
  let old := windowValue s l e.addr
  let (s0, stamp) := takeStamp s
  let s1 := deliver (laneEvents l stamp [(e.addr, e.new)] s0) (.words [(e.addr, e.new)] stamp)
  let s2 := editPut s1 (entryWords head e 2 ++ [(0x10 + 8 * head + 5, old.toNat % 65536),
    (0x10 + 8 * head + 6, old.toNat / 65536 % 65536), (0x10 + 8 * head + 7, old.toNat / 2 ^ 32),
    (0, (head + 1) % 256), (2, editWord s 2 - 1), (4, (editWord s 4 + 1) % 65536)])
  let s3 := postDev { s2 with seq := { s2.seq with editHeld := false, editNext := false } } 0x0304 4
    (leBytes 3 (e.addr + 2 ^ 22 * e.lanes) ++ leBytes 9 (e.new.toNat + 2 ^ 36 * old.toNat))
  queueDelta s3 [(e.addr, e.new)] ⟨0xFF, false, false, 0, 0, s.seq.ut, 0, 1⟩

/-- A commit that is ready begins after at most one edit: the next edit waits for it (R145). -/
def commitBefore (s : State) : Bool := !s.seq.editNext && allTasks.any (commitReady s)

/-- EDIT_APPLICATION: at a commit boundary the oldest queued edit is applied, or held while the delivery list is full (R145, R279). -/
def execEditApplication (s : State) : Out :=
  .next (
    if editWord s 2 = 0 ∨ s.sys.state ≠ .running ∨ s.asy.rollback.isSome ∨ commitBefore s then s
    else if deliveryFull s then
      if s.seq.editHeld then s
      else { s with seq := { s.seq with editHeld := true }, asy := { s.asy with holds := min 0x7FFF (s.asy.holds + 1) } }
    else dispatchBoth (applyEdit (dueSnapshots s)))

end Sys2Proof.Machine
end

