-- ==== Sys2Proof/Machine/Replay.lean ====
section
/-! DEFINITION. Replay (R164-R166), fences and provisional exceptions once the snapshot has passed (R169, R172), full re-execution
(R175) and the retirement of journal records (R160). -/

namespace Sys2Proof.Machine

open Sys2Proof

/-- The cycle whose registers a lane holds, once its Tk has passed and while nothing keeps the lane from running it. -/
def standing (s : State) (l : LaneId) : Option (Task × LCycle) :=
  let x := s.lane l
  match x.cur with
  | none => none
  | some t =>
    match x.cycle t with
    | none => none
    | some c =>
      if c.tkStamp.isSome && !c.fresh && !c.saved && !x.stopped && !x.halted && s.asy.rollback.isNone && (l == .b || s.asy.exc.isNone) &&
          !preemptDue s l then
        some (t, c)
      else none

/-- The forward pass or a replay has stopped, so that the replay decision of R167 is made. -/
def LCycle.stopped (c : LCycle) : Bool :=
  match c.hold with
  | .run => false
  | .waitFull => false
  | _ => c.pass != .full

/-- An instance set up for its replay (R164): its dirty bit is cleared, its tokens are replaced, and X13 and X14 come from its entry
record.
DESIGN CHOICE, log entry 15. -/
def startReplay (s : State) (l : LaneId) (t : Task) (q : Nat) (i : Inst) : State :=
  s.modLane l (fun x =>
    let own := fun r : JRec => r.ownOpen t && r.inst == q
    let words := ((x.journal.filter own).map (·.addr)).eraseDups
    let prev := words.map (fun a => (a, match x.store.following a own with | some f => f.1 | none => 0))
    ({ x with stall := .none, ctx := blockEntryClear x.ctx i.entry.toNat i.x13in i.x14in }).modCycle t (fun k => { k with
      insts := listModify k.insts q (fun n => { n with dirty := false, tokens := [], length := 0 })
      cur := q, pass := .replay, hold := .run, prevWrites := prev, curWrites := [], truncated := false, elem := 0
      uw := k.uw.filter (fun e => e.2.1 != q) }))

/-- REPLAY_INSTANCE: the earliest dirty instance of the cycle is executed again (R164); an instance table entry that cannot be read is a
task fault (R268). -/
def execReplayInstance (l : LaneId) (s : State) : Out :=
  .next (
    match standing s l with
    | none => s
    | some (t, c) =>
      match firstIdx (fun i : Inst => i.dirty) c.insts with
      | none => s
      | some q => match c.insts[q]? with
        | some i =>
          if !c.stopped then s
          else if i.err then taskFault s t c.number 0x08 false (some l) 3 0 0
          else startReplay s l t q i
        | none => s)

/-- FORWARD_PASS_RESUME: with Tk passed and nothing dirty, the fence at which the pass stands runs (R167, R169). -/
def execForwardPassResume (l : LaneId) (s : State) : Out :=
  .next (
    match standing s l with
    | some (t, c) => if c.hold == .fence && !c.anyDirty then enterBlock s l t c.fwd c.fwd13 c.fwd14 else s
    | none => s)

/-- PROVISIONAL_EXCEPTION_TAKEN: once every earlier instance is clean the exception is taken at its instruction, or discarded where
its own instance is dirty (R172). Lane B comes to it as to any instruction (R274, R289). -/
def execProvisionalExceptionTaken (l : LaneId) (s : State) : Out :=
  .next (
    match standing s l with
    | none => s
    | some (t, c) =>
      match c.hold with
      | .provisional code elem par =>
        if l == .b && !isSplit s && !laneBGate s then s
        else
        let q := c.insts.length - 1
        if (c.insts.take q).any (·.dirty) then s
        else if c.anyDirty then s.modCycle l t (fun k => { k with hold := .replayNext, fwdHold := .run })
        else takeException s l t code.toNat 0 c.fwd elem par
      | _ => s)

/-- FULL_REEXECUTION: the whole program runs again from ENTRY with registers as R118 sets them (R175 step 4). -/
def execFullReexecution (l : LaneId) (s : State) : Out :=
  .next (
    match standing s l with
    | none => s
    | some (t, c) =>
      if c.hold == .waitFull then
        let entry := match taskRec s t with | some r => r.entry | none => 0
        s.modLane l (fun x =>
          ({ x with stall := .none, ctx := { Ctx.init with sel := taskSelectors s l t, pc := BitVec.ofNat 20 entry } }).modCycle t
            (fun k => { k with insts := [Inst.start x.blocks entry 0 0], cur := 0, pass := .full, hold := .run, fwdHold := .run,
                               elem := 0 }))
      else s)

/-- The last entry of a list that meets a test removed. -/
def eraseLast {α : Type} (p : α → Bool) (l : List α) : List α := (l.reverse.eraseP p).reverse

/-- JOURNAL_RECORD_RETIRE: one record that R160 allows to retire frees its place; the oldest is taken. -/
def execJournalRecordRetire (l : LaneId) (s : State) : Out :=
  .next (s.modLane l (fun x => { x with journal := eraseLast (retirable s l) x.journal }))

end Sys2Proof.Machine
end

