-- ==== Sys2Proof/Machine/Assay.lean ====
section
/-! DEFINITION. The assay (R285-R298, R559, R615): verdicts and releases, the catch-up limit, the rollback, and the injection test of
a standby. -/

namespace Sys2Proof.Machine

open Sys2Proof

/-! ### Verdicts (R286-R291) -/

/-- Assay-A finds the two lanes' data equal (R285, R286). -/
def Verdict.equal (v : Verdict) : Bool := v.sigB == some v.sigA && v.egA == v.egB

/-- Egress words in complement. -/
def complemented (eg : List (Block × List W36)) : List (Block × List W36) := eg.map (fun p => (p.1, p.2.map (~~~ ·)))

/-- Assay-B finds the complements equal that it keeps of the two lanes' data (R285, R286). -/
def Verdict.equalB (v : Verdict) : Bool :=
  v.sigB.map (~~~ ·) == some (~~~ v.sigA) && complemented v.egA == complemented v.egB

/-- The code of a mismatch in which both comparators tripped (R289): EGRESS where only egress words differ. -/
def Verdict.mismatchCode (v : Verdict) : Nat :=
  if v.kind == .ckpt then 3 else if v.sigB == some v.sigA then 2 else 1

/-- Recovery ends once no reopened cycle is left to agree (R295). -/
def endRecovery (s : State) (v : Verdict) : State :=
  let left := s.asy.reopened.filter (fun t => t != v.task)
  let s1 := { s with asy := { s.asy with reopened := left } }
  if s1.asy.recovery && left.isEmpty then
    let n := sat16 s1.asy.transients 1
    postDev (notifySeam { s1 with asy := { s1.asy with recovery := false, transients := n }, hf := { s1.hf with noteAssay := true } } 12) 0x0402 5
      (leBytes 1 v.task.val ++ leBytes 1 0 ++ leBytes 4 v.cycle.toNat ++ leBytes 2 n)
  else s1

/-- What an agreed verdict releases (R286). -/
def releaseVerdict (s : State) (v : Verdict) : State :=
  match v.kind with
  | .ckpt => s
  | .egi _ => v.egA.foldl (fun acc p => releaseBlock acc p.1 p.2) s
  | .commit =>
    endRecovery (releaseNow { s with asy := { s.asy with agreed := v.sigA } } v) v

/-- The oldest pending verdict judged by both comparators, exchanged, proved and released (R285-R287). -/
def judge (s : State) (hw : AssayHw) (v : Verdict) (rest : List Verdict) : State :=
  let sigB := match v.sigB with | some b => b | none => 0
  let a := match hw.forceA with | some b => b | none => v.equal
  let b := match hw.forceB with | some b => b | none => v.equalB
  let miss := fun (code : Nat) => mismatch s code v.task v.cycle v.count (!a) (!b) v.sigA sigB
  if a != b then miss 8
  else if !a then miss v.mismatchCode
  else if v.kind != .ckpt && !hw.gateProof then miss 9
  else dispatchBoth (releaseVerdict { s with asy := { s.asy with pend := rest, opened := s.asy.opened || v.kind != .ckpt } } v)

/-- ASSAY_VERDICT: the oldest pending verdict whose data from Lane B has come is reached (R286, R287). A reset that is under way leaves no
verdict to be reached (R91, R131). -/
def execAssayVerdict (hw : AssayHw) (s : State) : Out :=
  .next (
    match s.asy.pend with
    | v :: rest =>
      if v.sigB.isSome && isPaired s && s.asy.gate && s.asy.rollback.isNone && !resetUnderWay s then judge s hw v rest else s
    | [] => s)

/-- CATCHUP_LIMIT_EXPIRY: Lane B has not reached a commit or a checkpoint of Lane A in time (R277). -/
def execCatchupLimitExpiry (s : State) : Out :=
  .next (
    match s.asy.pend.find? (fun v => v.sigB.isNone && (v.kind == .commit || v.kind == .ckpt)) with
    | some v =>
      if isPaired s && s.asy.gate && s.asy.rollback.isNone && !resetUnderWay s then
        let fold := match s.laneB.cycle v.task with | some c => c.fold | none => 0
        mismatch s 7 v.task v.cycle v.count true true v.sigA fold
      else s
    | none => s)

/-! ### The assay rollback (R293-R296, R615) -/

/-- A cycle that the rollback reopens, with what the sequencer restores for its task. -/
structure Reopen where
  task : Task
  cyc : LCycle
  /-- The pending commit that is voided, none for a cycle that is still open in Lane A. -/
  voided : Option Verdict

/-- The cycle of a task that is reopened: the earliest of its pending commits, else its open cycle (R293). -/
def reopenOf (s : State) (t : Task) : Option Reopen :=
  match s.asy.pend.find? (fun v => v.kind == .commit && v.task == t) with
  | some v => v.cyc.map (fun c => ⟨t, c, some v⟩)
  | none => (s.laneA.cycle t).map (fun c => ⟨t, c, none⟩)

/-- A cycle as it is reopened for full re-execution, its fold begun again (R175, R281, R293). -/
def LCycle.reopen (c : LCycle) (t : Task) : LCycle :=
  { c.toFull with
    reopened := true, replayCount := 0, elem := 0, tramBusy := false, tramStarted := false, tramDst := []
    fold := crc128 (BitVec.allOnes 128) (commitRecord 1 t (c.number.toNat * 2 ^ 80 + c.tk.toNat)), nrec := 1 }

/-- The W records of every cycle that is open in a lane or whose commit is pending there (R91, R293). -/
def unagreed (s : State) (l : LaneId) (r : JRec) : Bool :=
  r.isW && (match r.stamp with
    | none => true
    | some n => s.asy.pend.any (fun v => v.kind == .commit && (l == .a || v.sigB.isSome) && v.stamp == n))

/-- One lane undone (R293): the W records of every cycle that is open or whose commit is pending, newest first.
DESIGN CHOICE, log entry 100. -/
def undoLane (s : State) (l : LaneId) : Lane :=
  { ((s.lane l).undoWhere (unagreed s l)) with
    vein := [], readSet := [], cur := none, ctx := Ctx.init, preReq := false, stall := .none
    ckptFold := s.laneB.ckptFold, recq := 0 }

/-- A record that the undo must read is uncorrectable (R268). -/
def undoFails (s : State) : Option Task :=
  ((s.laneA.journal.filter (unagreed s .a) ++ s.laneB.journal.filter (unagreed s .b)).find? (·.err)).map (·.task)

/-- VALID cleared in a task's context save area (R293). -/
def clearContext (s : State) (l : LaneId) (t : Task) : State :=
  match ctxSegment s l t with
  | some (_, d) => s.modLane l (fun x =>
      { x.rewrites (d.base + 21) with mem := memSet x.mem (d.base + 21) (memGet x.mem (d.base + 21) &&& ~~~(0x10#36)) })
  | none => s

/-- The Tk of a reopened cycle as Lane B had it delivered. -/
def tkAtB (s : State) (r : Reopen) : Option Nat :=
  match r.voided with
  | some v => if v.sigB.isSome then v.tkStamp else (s.laneB.cycle r.task).bind (·.tkStamp)
  | none => (s.laneB.cycle r.task).bind (·.tkStamp)

/-- Every ingress application, validity change and edit of the delivery list applied to image B, in order (R293, R615). A Tk passage of
the list that concerns a reopened cycle counts from its place on, so that what follows it leaves the history R159 asks for. -/
def catchUpB (s : State) (rs : List Reopen) : State :=
  let opened : Vector (Option LCycle) 16 := Vector.ofFn (fun t : Fin 16 =>
    (rs.find? (fun r => r.task == t)).map (fun r => { r.cyc with tkStamp := tkAtB s r }))
  s.seq.delivery.foldl (fun acc e =>
    match e.1 with
    | .words ws n => laneEvents .b n ws acc
    | .tkPassage t n => acc.modCycle .b t (fun c => { c with tkStamp := some (c.tkStamp.getD n) })
    | _ => acc) { s with laneB := { s.laneB with cycles := opened } }

/-- What the sequencer restores for the task of a reopened cycle (R294). A stop that came while the verdict was awaited stands (R114). -/
def restoreTask (s : State) (r : Reopen) : State :=
  match r.voided with
  | none => s
  | some v => s.modTask r.task (fun k => { k with
      phase := .opened, number := v.cycle, sk := v.sk, overrun := v.overrun, consec := v.prevConsec, fbCode := v.prevFb
      fbRun := v.fbRun, stopReq := v.stopped || k.stopReq || k.phase == .stopped })

/-- A reopened cycle past Sk + BUDGET overruns at once (R294).
DESIGN CHOICE, log entry 17. -/
def reopenOverrun (s : State) (t : Task) : State :=
  let k := s.task t
  if k.phase == .opened && !k.overrun && (budgetEnd s t).ule s.seq.ut && s.pair.role != .faulted then overrun s t else s

/-- The whole rollback (R293). -/
def rollback (s : State) : State :=
  inOneClock s (
    let rs := allTasks.filterMap (reopenOf s)
    let tasks := allTasks.filter (fun t => (reopenOf s t).isSome || (s.laneB.cycle t).isSome)
    let s1 := { s with laneA := undoLane s .a, laneB := undoLane s .b }
    let s2 := tasks.foldl (fun acc t => clearContext (clearContext acc .a t) .b t) s1
    let s3 := catchUpB s2 rs
    let s4 := tasks.foldl (fun acc t => if (acc.tram.ch[t]).busy then endTransfer acc t 0x45 (acc.tram.ch[t]).k else acc) s3
    let s5 := tasks.foldl tallyReset s4
    let opened : Vector (Option LCycle) 16 :=
      Vector.ofFn (fun t : Fin 16 => (rs.find? (fun r => r.task == t)).map (fun r => r.cyc.reopen t))
    let s6 : State := { s5 with
      laneA := { s5.laneA with cycles := opened, count := s5.laneB.count }
      laneB := { s5.laneB with cycles := opened }
      seq := { s5.seq with delivery := [] }
      asy := { s5.asy with pend := [], effects := [], exc := none, rollback := none, reopened := rs.map (·.task) } }
    let s7 := rs.foldl restoreTask s6
    let s8 := dispatchBoth (rs.foldl (fun acc r => reopenOverrun acc r.task) s7)
    match undoFails s with
    | some t => unitFault s8 4 t.val 0x08
    | none => s8)

/-- ASSAY_ROLLBACK: both lanes have stopped after a mismatch (R293).
DESIGN CHOICE, log entry 20. -/
def execAssayRollback (s : State) : Out :=
  .next (if s.asy.rollback.isSome && s.pair.role != .faulted then rollback s else s)

/-! ### The injection test of a standby (R298, R559) -/

/-- The result of an injection test: the first failing pattern, 0 if all passed (R298, R300). -/
def injected (s : State) (firstFail : Byte) : State :=
  { s with asy := { s.asy with injRan := true, injOk := firstFail == 0, injFail := firstFail } }

/-- STANDBY_INJECTION_TEST: within 1 s of entering STANDBY; a failure is a unit fault (R559). -/
def execStandbyInjectionTest (firstFail : Byte) (s : State) : Out :=
  .next (
    if s.pair.role == .standby then
      let s1 := injected s firstFail
      if firstFail = 0 then s1 else unitFault s1 12 0xFF (0x500 + firstFail.toNat)
    else s)

end Sys2Proof.Machine
end

