-- ==== Sys2Proof/Machine/Ingress.lean ====
section
/-! DEFINITION. Ingress (R423-R427, R379) and the egress engine's mailboxes (R406, R430). -/

namespace Sys2Proof.Machine

open Sys2Proof

/-! ### Blocks -/

/-- The record of an ingress block. -/
def ingressRec (s : State) (b : Block) : Option IngRec := s.cht.charter.bind (fun c => c.ingress.find? (·.block == b))

/-- An ingress block that nothing has touched since the start. -/
def IngBlk.init : IngBlk where
  open_ := none
  fresh := none
  last := none
  count := 0
  valid := false

/-- What the part keeps for an ingress block. -/
def ingBlk (s : State) (b : Block) : IngBlk :=
  match s.ing.blocks.find? (fun p => p.1 == b) with
  | some p => p.2
  | none => IngBlk.init

def State.modIng (s : State) (b : Block) (f : IngBlk → IngBlk) : State :=
  { s with ing := { s.ing with blocks := putBlk s.ing.blocks b (f (ingBlk s b)) } }

/-- STAGE of a block's structure frame (R76). -/
def stageOf (s : State) (b : Block) : Nat :=
  match s.cht.charter.bind (fun c => c.frames.find? (fun f => f.xbar == 2 && f.entry == b.val)) with
  | some f => f.stage
  | none => 0

/-- A complete block that waits to be applied (R425). -/
def makeReady (s : State) (b : Block) (words : List W36) (valid : Bool) : State :=
  { s with ing := { s.ing with ready := s.ing.ready ++ [⟨b, words, valid, false⟩] } }

/-- The ingress path runs in the running state alone (R425). -/
def ingressRuns (s : State) : Bool := s.sys.state == .running

/-! ### Events of R126 that enter the image (R135, R137) -/

/-- Words that change as one sequencer event, after every Tk that has come (R127): both images at once in split mode, image B at Lane A's
count otherwise. -/
def enterImage (s : State) (ws : List (Nat × W36)) : State :=
  let (s0, stamp) := takeStamp (dueSnapshots s)
  if isSplit s then laneEvents .b stamp ws (laneEvents .a stamp ws s0)
  else deliver (laneEvents .a stamp ws s0) (.words ws stamp)

/-- Lane that stands for the image when the part reads it. -/
def imageLane (s : State) : Lane := s.laneA

/-- The words of an application with the block's validity bit in place (R425). -/
def withValidity (s : State) (r : IngRec) (words : List W36) (valid : Bool) : List (Nat × W36) :=
  let base := imageBase + r.image
  let v := imageBase + r.validWord
  let put := fun (w : W36) => if valid then w ||| (1#36 <<< r.validBit) else w &&& ~~~(1#36 <<< r.validBit)
  let ws := (List.range words.length).zipWith (fun i w => (base + i, if base + i = v then put w else w)) words
  if base ≤ v ∧ v < base + words.length then ws else ws ++ [(v, put ((imageLane s).store.committed v))]

/-- A block is stale at an instant: FRESH ms have passed since the stamp that counts for it (R426). -/
def stale (s : State) (r : IngRec) (stamp : W72) : Bool := r.fresh != 0 && decide (1000 * r.fresh ≤ (s.seq.ut - stamp).toNat)

/-- A block applied (R425). A field block's freshness counts from its STATUS frames, and it is valid only while it is fresh (R379).
DEDUCED, log entry 69. -/
def applyBlock (s : State) (r : IngRec) (e : ReadyBlk) : State :=
  let field := r.src == 2
  let old := match (ingBlk s r.block).fresh with | some f => stale s r f | none => false
  let valid := e.valid && !(field && old)
  let s1 := enterImage s (withValidity s r e.words valid)
  s1.modIng r.block (fun k => { k with
    fresh := if field then k.fresh else some s.seq.ut, last := some s.seq.ut, count := k.count + 1, valid := valid })

/-- INGRESS_APPLICATION: the oldest complete reading of a block enters the image, or is held while the delivery list is full (R279,
R425). -/
def execIngressApplication (b : Block) (s : State) : Out :=
  .next (
    match firstIdx (fun e : ReadyBlk => e.block == b) s.ing.ready with
    | none => s
    | some i =>
      match s.ing.ready[i]?, ingressRec s b with
      | some e, some r =>
        if !ingressRuns s then s
        else if deliveryFull s then
          if e.heldNoted then s
          else { s with
            ing := { s.ing with ready := listModify s.ing.ready i (fun x => { x with heldNoted := true }) }
            asy := { s.asy with holds := min 0x7FFF (s.asy.holds + 1) } }
        else
          dispatchBoth (applyBlock { s with ing := { s.ing with ready := s.ing.ready.eraseIdx i } } r e)
      | _, _ => s)

/-- FRESHNESS_EXPIRY: FRESH ms have passed since the last application, and the validity bit alone is cleared (R426). -/
def execFreshnessExpiry (b : Block) (s : State) : Out :=
  .next (
    match ingressRec s b, (ingBlk s b).fresh with
    | some r, some f =>
      if stale s r f ∧ (ingBlk s b).valid ∧ ingressRuns s then
        let v := imageBase + r.validWord
        let w := (imageLane s).store.committed v &&& ~~~(1#36 <<< r.validBit)
        dispatchBoth ((enterImage s [(v, w)]).modIng b (fun k => { k with valid := false }))
      else s
    | _, _ => s)

/-! ### Bus frames (R423, R424) -/

/-- Words carried by frame `f` of a block (R423). -/
def frameWords (r : IngRec) (f : Nat) : Nat :=
  let p := (r.words + r.frames - 1) / r.frames
  min r.words (f * p + p) - f * p

/-- Data bytes of a frame as its DLC gives them (R404). -/
def frameData (f : CanFrame) : List Byte := padTo (dlcBytes f.fdf f.dlc) (f.data.take (dlcBytes f.fdf f.dlc))

/-- The INGRESS record of a bus whose KEY a frame matches, with the frame's index (R423). -/
def ingressMatch (s : State) (n : Bus) (f : CanFrame) : Option (IngRec × Nat) :=
  match s.cht.charter with
  | none => none
  | some c =>
    (c.ingress.find? (fun r => r.src == 0 && r.unit == n.val && r.key.getLsbD 31 == f.ide &&
      decide (bitsOf r.key.toNat 28 0 ≤ f.id.toNat) && decide (f.id.toNat < bitsOf r.key.toNat 28 0 + r.frames))).map
      (fun r => (r, f.id.toNat - bitsOf r.key.toNat 28 0))

def malformed (s : State) : State := { s with ing := { s.ing with malformed := sat16 s.ing.malformed 1 } }
def incomplete (s : State) : State := { s with ing := { s.ing with incomplete := sat16 s.ing.incomplete 1 } }

/-- One frame of a multi-frame set (R424). -/
def stageFrame (s : State) (r : IngRec) (f : Nat) (words : List W36) : State :=
  let k := ingBlk s r.block
  let p := (r.words + r.frames - 1) / r.frames
  let stage := stageOf s r.block
  let put := fun (s0 : State) => { s0 with ing := { s0.ing with staging := memWriteSeq s0.ing.staging (stage + f * p) words } }
  let got := fun (s0 : State) (fs : List Nat) =>
    if fs.length = r.frames then
      makeReady (s0.modIng r.block (fun x => { x with open_ := none })) r.block (memWords s0.ing.staging stage r.words) true
    else s0.modIng r.block (fun x => { x with open_ := some fs })
  if f = 0 then
    let s1 := if k.open_.isSome then incomplete s else s
    got (put s1) [0]
  else match k.open_ with
    | some fs => got (put s) (if fs.contains f then fs else f :: fs)
    | none => { s with ing := { s.ing with orphan := sat16 s.ing.orphan 1 } }

/-- A frame that matches the KEY of a record (R423, R424). -/
def takeIngressFrame (s : State) (r : IngRec) (f : Nat) (frame : CanFrame) : State :=
  let n := frameWords r f
  let data := frameData frame
  if frame.rtr || decide (data.length < 5 * n) || !packedClean data n then malformed s
  else if r.frames ≤ 1 then makeReady s r.block (unpackWords data n) true
  else stageFrame s r f (unpackWords data n)

/-- INGRESS_SET_TIMEOUT: a set has been open for ING.SET_MS (R424). -/
def execIngressSetTimeout (b : Block) (s : State) : Out :=
  .next (if (ingBlk s b).open_.isSome then incomplete (s.modIng b (fun k => { k with open_ := none })) else s)

/-! ### Host mailboxes (R434) -/

/-- A header field of a host mailbox: STATE 0, LENGTH 2, UPDATE 4, RESULT 6. -/
def boxField (s : State) (m off : Nat) : Nat := leNat (msgBytes s.msg (4096 * m + off) 2)

/-- A header field written by the part. -/
def putBoxField (s : State) (m off v : Nat) : State := { s with msg := msgPut s.msg (4096 * m + off) (leBytes 2 v) }

/-- STATE codes. -/
def boxBusy : Nat := 1
def boxDone : Nat := 2

/-- The mailbox has been processed: STATE DONE and its DONE bit. -/
def finishBox (s : State) (m : Nat) : State := hostDone (putBoxField s m 0 boxDone) m

/-! ### Host records (R427) -/

/-- Error codes of R442 that R427 names. -/
def resOk : Nat := 0
def resLength : Nat := 2
def resField : Nat := 3
def resCrc : Nat := 13

/-- The records of a belled ingress mailbox taken in order: the state with the valid ones ready, and the first error.
DESIGN CHOICE, log entry 55. -/
def takeRecords : Nat → Nat → List Byte → Nat → State → State × Nat
  | 0, _, _, err, s => (s, err)
  | fuel + 1, m, bs, err, s =>
    if bs = [] then (s, err)
    else
      let fail := fun (s0 : State) => { s0 with ing := { s0.ing with recErr := sat16 s0.ing.recErr 1 } }
      let worse := fun (e : Nat) => if err = resOk then e else err
      let bs12 := leAt bs 4 2
      match (if bs.length < 8 then none else ingressRec s (Fin.ofNat 512 (bs12 % 512))) with
      | none => (fail s, worse (if bs.length < 8 then resLength else resField))
      | some r =>
        let size := slotSize r.words
        if bs.length < size then (fail s, worse resLength)
        else
          let packed := (bs.drop 8).take (5 * r.words)
          let rest := bs.drop size
          let bad :=
            if leAt bs 0 4 ≠ 0 then some resField
            else if r.src ≠ 1 ∨ r.unit ≠ m then some resField
            else if crc16 (0#8 :: bs.take 6 ++ packed) ≠ BitVec.ofNat 16 (leAt bs 6 2) then some resCrc
            else if packedClean packed r.words then none else some resField
          match bad with
          | some e => takeRecords fuel m rest (worse e) (fail s)
          | none => takeRecords fuel m rest err (makeReady s r.block (unpackWords packed r.words) true)

/-- The records of a belled ingress mailbox are taken, with its RESULT (R427, R434).
DESIGN CHOICE, log entry 55. -/
def takeBox (s : State) (m : Nat) : State :=
  let n := boxField s m 2
  let (s1, err) := takeRecords 512 m (msgBytes s.msg (4096 * m + 16) (min 4080 n)) (if 4080 < n then resLength else resOk) s
  finishBox (putBoxField s1 m 6 err) m

/-- The ingress path begins to run: the mailboxes belled before are taken (R425).
DESIGN CHOICE, log entry 55. -/
def takeHeldBoxes (s : State) : State :=
  (List.range 8).foldl (fun acc m => if hostKind acc m = 1 ∧ boxField acc m 0 = boxBusy then takeBox acc m else acc) s

/-! ### Field blocks (R379) -/

/-- The words and validity of a field block for the filtered states of a status frame.
DEDUCED, log entry 69. -/
def fieldBlock (s : State) (r : IngRec) (inp : W32) : List W36 × Bool :=
  let chans := (List.finRange 32).filter (fun i => r.key.getLsbD i.val)
  let broken := fun (i : Chan) => (s.fd.ch[i]).wireBreak
  let words := (List.range r.words).map (fun w =>
    chans.foldl (fun (acc : W36) i =>
      match s.cht.charter.bind (fun c => c.field[i.val]?) with
      | some f => if f.word = r.image + w ∧ inp.getLsbD i.val ∧ !broken i then acc ||| (1#36 <<< f.bitix) else acc
      | none => acc) 0)
  (words, chans.all (fun i => !broken i) && !s.fld.vfLow)

/-- A status frame accepted: each field block's freshness restarts, and a block that changes from what its waiting applications, or else
the image, hold becomes ready behind them (R379, R426).
DEDUCED, log entry 69. -/
def takeFieldBlocks (s : State) (inp : W32) : State :=
  let recs : List IngRec := match s.cht.charter with | some c => c.ingress.filter (fun r => r.src == 2) | none => []
  if !ingressRuns s then s
  else recs.foldl (fun acc r =>
    let acc1 := acc.modIng r.block (fun k => { k with fresh := some acc.seq.ut })
    let (words, valid) := fieldBlock acc1 r inp
    let same := match (acc1.ing.ready.filter (fun e => e.block == r.block)).getLast? with
      | some e => e.words == words && e.valid == valid
      | none => (withValidity acc1 r words valid).all (fun p => (imageLane acc1).store.committed p.1 == p.2) &&
          (ingBlk acc1 r.block).valid == valid
    if same then acc1 else makeReady acc1 r.block words valid) s

/-! ### The egress engine (R406, R430) -/

/-- The order in which frames win arbitration (R406): the lower number goes first. -/
def arbitrationKey (id : BitVec 29) (ide rtr : Bool) : Nat :=
  if ide then (id.toNat / 2 ^ 18) * 2 ^ 21 + 2 ^ 20 + (id.toNat % 2 ^ 18) * 2 + bit rtr
  else (id.toNat % 2 ^ 11) * 2 ^ 21 + bit rtr

/-- The first entry with the least key. -/
def firstLeast {α : Type} (key : α → Nat) : List α → Option α
  | [] => none
  | a :: r => match firstLeast key r with
    | some b => if key b < key a then some b else some a
    | none => some a

/-- A frame as the words +0 to +4 and the data of a mailbox or FIFO entry hold it (R404). -/
def frameHead (f : CanFrame) : List W16 :=
  [BitVec.ofNat 16 (f.id.toNat % 65536),
   BitVec.ofNat 16 (f.id.toNat / 65536 + 2 ^ 15 * bit f.ide + 2 ^ 14 * bit f.fdf + 2 ^ 13 * bit f.brs),
   BitVec.ofNat 16 (f.dlc.toNat + 2 ^ 4 * bit f.rtr)]

/-- Data bytes as 32 words (R404). -/
def dataWords (bs : List Byte) : List W16 :=
  (List.range 32).map (fun i => (bs.getD (2 * i + 1) 0) ++ (bs.getD (2 * i) 0))

/-- EGRESS_MAILBOX_LOAD: the queued frame that would win arbitration goes into the lowest free egress mailbox (R430). -/
def execEgressMailboxLoad (n : Bus) (s : State) : Out :=
  .next (
    let free := ((List.finRange 64).filter (fun m => decide (48 ≤ m.val))).find? (fun m =>
      mbxState s n m.val != mbPending && mbxState s n m.val != mbSending)
    match free, firstLeast (fun e : EgrFrame => arbitrationKey e.frame.id e.frame.ide e.frame.rtr) s.ing.queue[n] with
    | some m, some e =>
      if egressBus s n then
        let words := frameHead e.frame ++ [0, 0, BitVec.ofNat 16 mbPending, 0, 0] ++ dataWords (frameData e.frame)
        { s with
          msg := memWriteSeq s.msg (mbxBase n m.val) words
          ing := { s.ing with
            queue := vecModify s.ing.queue n (fun q => q.erase e)
            loaded := vecModify s.ing.loaded n (fun l => (m, e.block) :: l.filter (fun p => p.1 != m)) } }
      else s
    | _, _ => s)

end Sys2Proof.Machine
end

