-- ==== Sys2Proof/Machine/Events.lean ====
section
/-! DEFINITION. The event recorder's log (R514-R530): records written and read, the rebuild at a start, rate-limit windows and the
EVT ports that act. Posting stands with the shared operations. -/

namespace Sys2Proof.Machine

open Sys2Proof

/-- Records that the log holds. -/
def logSize : Nat := 24576

/-- The 32 bytes of a record (R514). -/
def recordBytes (e : EvItem) : List Byte :=
  let body := leBytes 6 e.time.toNat ++ leBytes 4 e.seq.toNat ++ leBytes 2 e.code.toNat ++ [e.source, e.flags] ++
    leBytes 4 e.utime.toNat ++ padTo12 e.param
  body ++ leBytes 2 (crc16 body).toNat
where
  /-- Twelve parameter bytes. -/
  padTo12 (bs : List Byte) : List Byte := (bs ++ List.replicate 12 0).take 12

/-- The bytes of record `i` as the pillar holds them. -/
def logRecord (s : State) (i : Nat) : List Byte := pilBytes s (eventArea + 32 * i) 32

/-- The pages of `n` records from `i` on, read (R491). -/
def readRecords (s : State) (i n : Nat) : State :=
  let first := (eventArea + 32 * i) / 64
  ((List.range ((eventArea + 32 * (i + n) + 63) / 64 - first)).map (· + first)).foldl readPage s

/-- A record's CRC holds. -/
def recordValid (bs : List Byte) : Bool := crc16 (bs.take 30) == BitVec.ofNat 16 (leAt bs 30 2)

def State.modEvt (s : State) (f : EvtState → EvtState) : State := { s with evt := f s.evt }

/-- A record put at an index through the recorder's buffer, one page commit (R516). -/
def putRecord (s0 : State) (i : Nat) (bs : List Byte) : State :=
  let a := eventArea + 32 * i
  let s := readPage s0 (a / 64)
  let g := bs.foldl Gather.push { Gather.load s (a / 64) with off := a % 64 }
  (pilCommit (s.modPil (fun p => { p with rcd := g })) .recorder (a / 64) g.data.toList).1

/-- Events posted before the recorder runs wait in the input queue and take their numbers once it does.
DEDUCED, log entry 79. -/
def renumberQueue (s : State) : State :=
  s.modEvt (fun v => { v with
    queue := (List.range v.queue.length).zipWith (fun i (e : EvItem) => { e with seq := v.seq + BitVec.ofNat 32 i }) v.queue })

/-- A record written raises vector 23 where it fills the log or is a SUMMARY (R366, R468, R524). -/
def noteLog (s : State) (code : W16) : State := if s.evt.full || code == 0x0F01 then notifySeam s 4 else s

/-- An OVERRUN event whose cycle is still open waits for the time that its close gives (R141).
DESIGN CHOICE, log entry 17. -/
def awaitsClose (s : State) (e : EvItem) : Bool :=
  match e.awaits with
  | some t => (s.task t).phase == .opened && (s.task t).overrun
  | none => false

/-- EVENT_RECORD_WRITE: the oldest queued event is written and EVT_SEQ follows it; with a full log it is lost and the others take their
numbers anew (R516, R517, R519, R524). The power-fail warning refuses the commit and the event stays queued (R494, R518). Nothing is written before
the log is rebuilt, and after a memory fault of the pillar SRAM no event is recorded (R520, R614).
DESIGN CHOICE, log entry 92. -/
def execEventRecordWrite (s : State) : Out :=
  .next (
    match s.evt.queue with
    | [] => s
    | e :: rest =>
      if s.sys.noLog then s.modEvt (fun v => { v with queue := [] })
      else if !s.evt.ready || awaitsClose s e then s
      else if logSize ≤ s.evt.count then renumberQueue (loseEvent (s.modEvt (fun v => { v with queue := rest })))
      else if s.pil.pfw then putRecord s s.evt.count (recordBytes e)
      else
        let s1 := putRecord s s.evt.count (recordBytes e)
        noteLog (commitCounters (s1.modEvt (fun v => { v with
          queue := v.queue.drop 1, seq := v.seq + 1, count := v.count + 1, full := v.count + 1 == logSize
          summary := v.summary || e.code == 0x0F01 }))) e.code)

/-- RATE_WINDOW_CLOSE: a window has been open for W seconds (R521, R522). -/
def execRateWindowClose (code : Option W16) (s : State) : Out := .next (closeWindow s code)

/-- The recorder's state rebuilt from the pillar (R520). -/
def rebuildState (s : State) : State :=
  let seq := BitVec.ofNat 32 (pilNat s sysEvtSeq 4)
  let s0 := s.modEvt (fun v => { v with
    seq := seq, lost := BitVec.ofNat 32 (pilNat s sysEvtLost 4)
    clears := BitVec.ofNat 32 (pilNat s sysEvtState 4), suppressed := BitVec.ofNat 32 (pilNat s (sysEvtState + 8) 4)
    count := 0, full := false, adopted := false })
  let first := logRecord s 0
  if !recordValid first then s0
  else
    let count := (seq - BitVec.ofNat 32 (leAt first 6 4)).toNat
    let next := logRecord s count
    if count < logSize ∧ recordValid next ∧ leAt next 6 4 = seq.toNat then
      let cleared := leAt next 10 2 == 0x0F02
      commitCounters (s0.modEvt (fun v => { v with
        count := count + 1, seq := seq + 1, lost := if cleared then 0 else v.lost, adopted := true, full := count + 1 == logSize }))
    else s0.modEvt (fun v => { v with count := count, full := count == logSize })

/-- The rebuild of R520, with the events that waited for it; the pages it goes by are read (R491). -/
def rebuildLog (s : State) : State :=
  let s1 := readPage (readPage s 0) 4
  renumberQueue ((rebuildState s1).modEvt (fun v => { v with ready := true }))

/-- The log cleared by a token that passed (R527): a CLEARED record in record 0.
DESIGN CHOICE, log entry 13. -/
def clearLog (s : State) (keyix : Nat) : State :=
  let erased := s.evt.count
  let rec_ : EvItem := {
    time := calStamp s.bkp.cal, seq := s.evt.seq, code := 0x0F02, source := 0xC0
    flags := BitVec.ofNat 8 (1 + 8 * bit s.bkp.timeValid), utime := BitVec.ofNat 32 s.seq.ut.toNat, awaits := none
    param := leBytes 1 keyix ++ leBytes 3 0 ++ leBytes 4 erased ++ leBytes 4 s.evt.lost.toNat }
  let s1 := putRecord s 0 (recordBytes rec_)
  commitCounters (s1.modEvt (fun v => { v with
    seq := v.seq + 1, lost := 0, count := 1, full := false, clears := v.clears + 1
    queue := v.queue.map (fun e => { e with seq := e.seq + 1 }) }))

/-! ### EVT ports that act (R530) -/

/-- EVT.POST (R530): with P = 1 a device code is refused. -/
def evtPostEffect (p : Bool) (s : State) : State :=
  let code := s.evt.pcode.toNat
  if p ∧ code < 0x1000 then s.modEvt (fun v => { v with postDenied := true })
  else postEvent s code s.evt.psev.toNat (0x80 + bit p) (s.evt.ppar.toList.flatMap (fun w => leBytes 2 w.toNat))

/-- EVT.RSEL: the record is captured, zeros where none is held (R530). -/
def evtRselEffect (s0 : State) (value : W16) : State :=
  let i := value.toNat % 32768
  let bs := logRecord s0 i
  let s := if i < s0.evt.count then readRecords s0 i 1 else s0
  s.modEvt (fun v => { v with
    rsel := i
    rdata := if i < v.count then (List.range 16).map (fun j => BitVec.ofNat 16 (leAt bs (2 * j) 2)) else [] })

/-- EVT_POST (R530). -/
def execEvtPost (p : Bool) (s : State) : Out := .next (gatedWrite s 0x2428 p (evtPostEffect p))

/-- EVT_RSEL (R530). -/
def execEvtRsel (value : W16) (p : Bool) (s : State) : Out := .next (gatedWrite s 0x2408 p (evtRselEffect · value))

end Sys2Proof.Machine
end

