-- ==== Sys2Proof/Machine/Window.lean ====
section
/-! DEFINITION. The lane window (R36-R43): what it shows of a lane, and the edits posted through it. -/

namespace Sys2Proof.Machine

open Sys2Proof

/-- Lane word that a window shows at index `i` (R36): the address in the lane's physical word space; none beyond the region. -/
def windowAddr (ctl : W16) (i : Nat) : Option Nat :=
  let base := bitsOf ctl.toNat 8 0
  if ctl.getLsbD 14 then (if 32 ≤ base then none else some (0x200000 + 4096 * base + i)) else some (4096 * base + i)

/-- The lane that a window shows. -/
def windowLane (ctl : W16) : LaneId := if ctl.getLsbD 15 then .b else .a

/-- A word as a window shows it: none where it lies in no segment (R38, R40). -/
def windowWord (s : State) (l : LaneId) (a : Nat) : Option W36 := if (segmentAt s l a).isSome then some (windowValue s l a) else none

/-- A window access reopens the gate of the island it reaches (R41). -/
def openWindowGate (s : State) (ctl : W16) : State :=
  let i : Island := if ctl.getLsbD 14 then 2 else if ctl.getLsbD 15 then 1 else 0
  openGate s i

/-! ### Edits (R39, R40, R143, R345) -/

/-- A word is editable: an EDIT record names it for the lanes concerned (R74, R143). -/
def editable (s : State) (lanes a : Nat) : Bool :=
  match s.cht.charter with
  | some c => c.edits.any (fun r => decide (r.addr ≤ a) && decide (a < r.addr + r.count) && (r.lanes &&& lanes) == lanes)
  | none => false

/-- LANES of an edit posted through a window (R39, R144): both lanes in paired mode, the selected lane in split mode. -/
def editLanes (s : State) (l : LaneId) : Nat := if isSplit s then (match l with | .a => 1 | .b => 2) else 3

/-- The edit queue takes no posting: it is full, or the part is neither ACTIVE nor ALONE (R40, R345). -/
def editFull (s : State) : Bool := decide (256 ≤ editWord s 2) || !roleRuns s.pair.role

/-- Why a write at +2 is refused (R40), in the order of the rule. -/
inductive EditRefusal where
  | notEdit | queueFull | partialLatch
  deriving DecidableEq, Repr

/-- An edit offered to the queue: refused, or posted (R39, R40, R143).
DEDUCED, log entry 40. -/
def offerEdit (s : State) (l : LaneId) (a : Nat) (whole : Option W36) : State × Option EditRefusal :=
  let lanes := editLanes s l
  if !editable s lanes a then ({ s with hf := { s.hf with winNotEdit := true } }, some .notEdit)
  else if editFull s then ({ s with hf := { s.hf with winQfull := true } }, some .queueFull)
  else match whole with
    | none => ({ s with hf := { s.hf with winPartial := true } }, some .partialLatch)
    | some v => (postEdit s ⟨a, lanes, v⟩, none)

/-! ### The Headframe's window (R36-R43) -/

/-- A write to HF.WIN_CTL clears both latches (R43). -/
def winCtlEffect (s : State) (value : W16) : State :=
  { s with hf := { s.hf with winCtl := value &&& 0xC1FF#16, winRead := none, win0 := none, win1 := none } }

/-- The part of a lane word that an offset shows. -/
def wordPart (v : W36) (j : Nat) : W16 := if j < 3 then v.extractLsb' (16 * j) 16 else 0

/-- A read at offset `j` of window word `i`: the value, or none for a bus error (R36, R37, R40). -/
def winReadEffect (s : State) (i j : Nat) : State × Option W16 :=
  let ctl := s.hf.winCtl
  let l := windowLane ctl
  let s0 := openWindowGate s ctl
  match windowAddr ctl i with
  | none => ({ s0 with hf := { s0.hf with winRange := true } }, none)
  | some a =>
    match windowWord s l a with
    | none => ({ s0 with hf := { s0.hf with winSeg := true } }, none)
    | some v =>
      let held := match s.hf.winRead with
        | some (lb, ha, hv) => if lb = (l == LaneId.b) ∧ ha = a ∧ (j = 1 ∨ j = 2) then some hv else none
        | none => none
      match held with
      | some hv => (s0, some (wordPart hv j))
      | none =>
        if j = 3 then (s0, some 0)
        else ({ s0 with hf := { s0.hf with winRead := some (l == LaneId.b, a, v) } }, some (wordPart v j))

/-- The whole value that a write at +2 completes, where both halves were written for the same lane word (R39). -/
def wholeEdit (s : State) (laneB : Bool) (a : Nat) (value : W16) : Option W36 :=
  match s.hf.win0, s.hf.win1 with
  | some p, some q =>
    if p.laneB = laneB ∧ p.addr = a ∧ q.laneB = laneB ∧ q.addr = a then
      some (BitVec.ofNat 36 (p.value.toNat + q.value.toNat * 2 ^ 16 + (value.toNat % 16) * 2 ^ 32))
    else none
  | _, _ => none

/-- A write at offset `j` of window word `i`; false for a bus error (R36, R39, R40).
DEDUCED, log entry 29. -/
def winWriteEffect (s : State) (i j : Nat) (value : W16) : State × Bool :=
  let ctl := s.hf.winCtl
  let l := windowLane ctl
  let laneB := l == LaneId.b
  let s0 := openWindowGate s ctl
  match windowAddr ctl i with
  | none => ({ s0 with hf := { s0.hf with winRange := true } }, false)
  | some a =>
    match j with
    | 0 => ({ s0 with hf := { s0.hf with win0 := some ⟨laneB, a, value⟩ } }, true)
    | 1 => ({ s0 with hf := { s0.hf with win1 := some ⟨laneB, a, value⟩ } }, true)
    | 2 =>
      let s1 := (offerEdit s0 l a (wholeEdit s laneB a value)).1
      ({ s1 with hf := { s1.hf with win0 := none, win1 := none } }, true)
    | _ => (s0, true)

/-- One edit that vendor firmware posts for VALUES_EDIT (R143): WIN_CTL is set for the entry, the three writes are made, and WIN_CTL is
restored. -/
def firmwareEdit (s : State) (l : LaneId) (a : Nat) (v : W36) : State × Option EditRefusal :=
  let ctl := s.hf.winCtl
  let r := offerEdit (winCtlEffect s 0) l a (some v)
  (winCtlEffect r.1 ctl, r.2)

end Sys2Proof.Machine
end

