-- ==== Sys2Proof/Machine/Host.lean ====
section
/-! DEFINITION. The host port (R433-R437, R443): read and write bursts, the host registers, bells and the completion of a mailbox. -/

namespace Sys2Proof.Machine

open Sys2Proof

def State.modHost (s : State) (f : HostState → HostState) : State := { s with host := f s.host }

/-- The port serves transactions from step 5 of a start on and in every end state (R433, R614). -/
def hostServes (s : State) : Bool :=
  match s.sys.phase with
  | .idle => s.sys.state != .starting
  | .negotiating => true
  | .judging 7 => true
  | .locking 7 => true
  | .ramping 7 _ => true
  | _ => false

/-- A host transaction is counted (R443).
DESIGN CHOICE, log entry 54. -/
def countHost (s : State) : State := s.modHost (fun h => { h with xcount := sat16 h.xcount 1 })

/-! ### Mailboxes (R434) -/

/-- A request in a service mailbox arrives (R439); its bell crosses seam 9 (R468). -/
def requestArrives (s : State) (m : Nat) : State :=
  let n := boxField s m 2
  let bytes := padTo n (msgBytes s.msg (4096 * m + 16) (min 4080 n))
  notifySeam { s with
    host := { s.host with pend := s.host.pend ||| (1#8 <<< (m % 8)) }
    obt := { s.obt with reqs := s.obt.reqs ++ [(.mailbox (Fin.ofNat 8 m), bytes)] } } 9

/-- One bit of BELL: refused for a BUSY or an egress mailbox; an ingress mailbox's records are taken once the ingress path runs, a service
mailbox waits for firmware (R425, R427, R434, R443).
DESIGN CHOICE, log entry 55. -/
def bellBox (s : State) (m : Nat) : State :=
  let kind := hostKind s m
  if boxField s m 0 = boxBusy ∨ kind = 2 then s.modHost (fun h => { h with errBell := true })
  else
    let s1 := putBoxField s m 0 boxBusy
    if kind ≠ 1 then requestArrives s1 m
    else if ingressRuns s1 then takeBox s1 m
    else s1

/-- A write to BELL. -/
def bellEffect (s : State) (mask : Byte) : State :=
  (List.range 8).foldl (fun acc m => if mask.getLsbD m then bellBox acc m else acc) s


/-- The oldest request of a channel is no longer waiting (R439). -/
def dropMessage (s : State) (ch : ObtChan) : State :=
  match firstIdx (fun (p : ObtChan × List Byte) => p.1 == ch) s.obt.reqs with
  | some i => { s with obt := { s.obt with reqs := s.obt.reqs.eraseIdx i } }
  | none => s

/-- A write of HOST.FIN: each belled service mailbox named is complete (R443). -/
def finEffect (mask : Byte) (s : State) : State :=
  (List.range 8).foldl (fun acc m =>
    if mask.getLsbD m && acc.host.pend.getLsbD m then
      dropMessage ((finishBox acc m).modHost (fun h => { h with pend := h.pend &&& ~~~(1#8 <<< (m % 8)) })) (.mailbox (Fin.ofNat 8 m))
    else acc) s

/-- HOST_FIN (R443). -/
def execHostFin (mask : Byte) (p : Bool) (s : State) : Out := .next (gatedWrite s 0x1C02 p (finEffect mask))

/-! ### Reads (R434, R436, R437) -/

/-- Bytes [7:0] of HSTAT, the host register at 0x0001_0000. -/
def hstat (s : State) : Nat := s.sys.state.code + 8 * bit (s.pair.claim != 0) + 16 * s.pair.role.code

/-- A host register by its address (R436). -/
def hostReg (s : State) (a : Nat) : Nat :=
  let h := s.host
  match a with
  | 0x10000 => hstat s
  | 0x10008 => h.done.toNat
  | 0x1000C => h.irqen.toNat
  | 0x10010 => h.win.toNat
  | 0x10014 => bit h.winSeg + 2 * bit h.winRange + 4 * bit h.winWrite
  | _ => 0

/-- A byte of the host's address map (R434, R437). -/
def hostByte (s : State) (a : Nat) : Byte :=
  if a < 0x8000 then (msgBytes s.msg a 1).getD 0 0
  else if 0x10000 ≤ a ∧ a < 0x10018 then BitVec.ofNat 8 (hostReg s (a / 4 * 4) >>> (8 * (a % 4)))
  else if 0x20000 ≤ a ∧ a < 0x28000 then
    let i := (a - 0x20000) / 8
    if s.host.winOff then 0
    else match (windowAddr s.host.win i).bind (windowWord s (windowLane s.host.win)) with
      | some v => BitVec.ofNat 8 (v.toNat >>> (8 * (a % 8)))
      | none => 0
  else 0

/-- The flags that a burst of window words sets (R437). -/
def windowFlags (s : State) (a len : Nat) : State :=
  let from_ := max a 0x20000
  let upto := min (a + len) 0x28000
  if s.host.winOff ∨ upto ≤ from_ then s
  else
    let words := (List.range ((upto - 1 - 0x20000) / 8 - (from_ - 0x20000) / 8 + 1)).map (fun k => (from_ - 0x20000) / 8 + k)
    let l := windowLane s.host.win
    let range := words.any (fun i => (windowAddr s.host.win i).isNone)
    let seg := words.any (fun i => match windowAddr s.host.win i with | some x => (windowWord s l x).isNone | none => false)
    s.modHost (fun h => { h with winRange := h.winRange || range, winSeg := h.winSeg || seg })

/-- A read burst (R433, R434); in the window it reopens the gates of the lane or the image (R41). -/
def burstRead (s : State) (addr len : Nat) : State :=
  let bytes := (List.range len).map (fun i => hostByte s (addr + i))
  let s1 := if 0x20000 < addr + len ∧ addr < 0x28000 ∧ ¬ s.host.winOff then openWindowGate s s.host.win else s
  windowFlags (s1.modHost (fun h => { h with lastRead := bytes })) addr len

/-- Read status returns HSTAT bits [7:0] (R433). -/
def burstStatus (s : State) : State := s.modHost (fun h => { h with lastRead := leBytes 1 (hstat s) })

/-- XSPI_UNSUPPORTED_COMMAND: any command but 0xEE, 0x12 and 0x05 is ignored (R433).
DESIGN CHOICE, log entry 54. -/
def execXspiUnsupportedCommand (cmd : Byte) (s : State) : Out :=
  .next (if hostServes s ∧ cmd ∉ [0xEE#8, 0x12#8, 0x05#8] then s.modHost (fun h => { h with errCmd := true }) else s)

/-! ### Writes (R434, R436, R437) -/

/-- A 16-bit write into a mailbox: refused while it is BUSY and in an egress mailbox; of the header the host writes LENGTH only.
DESIGN CHOICE, log entry 54. -/
def writeBox (s : State) (a v : Nat) : State :=
  let m := a / 4096
  let off := a % 4096
  if boxField s m 0 = boxBusy ∨ hostKind s m = 2 then s.modHost (fun h => { h with errBusyWr := true })
  else if off = 2 ∨ 16 ≤ off then { s with msg := memSet s.msg (a / 2) (BitVec.ofNat 16 v) }
  else s

/-- The low half of a host register written (R436). -/
def writeReg (s : State) (a v : Nat) : State :=
  let b := BitVec.ofNat 8 v
  match a with
  | 0x10004 => bellEffect s b
  | 0x10008 => hostLine (s.modHost (fun h => { h with done := h.done &&& ~~~b }))
  | 0x1000C => hostLine (s.modHost (fun h => { h with irqen := b }))
  | 0x10010 => s.modHost (fun h => { h with win := BitVec.ofNat 16 v &&& 0xC1FF#16 })
  | 0x10014 => s.modHost (fun h => { h with
      winSeg := h.winSeg && !v.testBit 0, winRange := h.winRange && !v.testBit 1, winWrite := h.winWrite && !v.testBit 2 })
  | _ => s

/-- One 16-bit write of a burst. -/
def hostWriteWord (s : State) (a v : Nat) : State :=
  if a < 0x8000 then writeBox s a v
  else if 0x10000 ≤ a ∧ a < 0x10018 then writeReg s a v
  else if 0x20000 ≤ a ∧ a < 0x28000 then s.modHost (fun h => { h with winWrite := true, errWinWr := true })
  else s

/-- A write burst (R433, R434). -/
def burstWrite (s : State) (addr : Nat) (data : List Byte) : State :=
  (List.range (data.length / 2)).foldl (fun acc i => hostWriteWord acc (addr + 2 * i) (leAt data (2 * i) 2)) s

/-! ### Transactions and the seam of the host port (R433, R460, R463) -/

/-- What an access does where it is delivered. -/
def hostEffect (s : State) (x : HeldAccess) : State :=
  match x with
  | .read addr len => burstRead s addr.toNat len
  | .status => burstStatus s
  | .write addr data => burstWrite s addr.toNat data
  | .bell mask => bellEffect s mask

/-- The clock returns: what the seam held is delivered in order, each access once (R463).
DESIGN CHOICE, log entry 122. -/
def deliverHeld (s : State) : State :=
  if s.clk.lock then s.seam.held.foldl hostEffect { s with seam := { s.seam with held := [] } } else s

/-- A transaction is counted and opens the gate of XSPI (R443, R460); while the root is held its seam holds it (R453, R463).
DESIGN CHOICE, log entry 122. -/
def hostAccess (s : State) (x : HeldAccess) : State :=
  if !hostServes s then s
  else
    let s1 := openGate (countHost s) 6
    if s.clk.lock then hostEffect s1 x else { s1 with seam := { s1.seam with held := s1.seam.held ++ [x] } }

/-- HOST_READ: command 0xEE (R433, R434). -/
def execHostRead (addr : W32) (len : Nat) (s : State) : Out := .next (hostAccess s (.read addr len))

/-- HOST_READ_STATUS: command 0x05 (R433). -/
def execHostReadStatus (s : State) : Out := .next (hostAccess s .status)

/-- HOST_WRITE: command 0x12 (R433, R434).
DESIGN CHOICE, log entry 54. -/
def execHostWrite (addr : W32) (data : List Byte) (s : State) : Out := .next (hostAccess s (.write addr data))

/-- HOST_BELL: bits of BELL are written (R434). -/
def execHostBell (mask : Byte) (s : State) : Out := .next (hostAccess s (.bell mask))

end Sys2Proof.Machine
end

