-- ==== Sys2Proof/Machine/CharterLoad.lean ====
section
/-! DEFINITION. The charter stream (R47-R79): its sections decoded into settings, and the loader's checks in the order of R84. The
functions here depend on bytes, fuses and the running firmware only; a start applies what they answer (R81, R82). -/

namespace Sys2Proof.Machine

open Sys2Proof

/-! ### Framing (R49-R54) -/

/-- A refusal: CHT.CODE, CHT.SECT and CHT.OFFS (R84). -/
structure ChtErr where
  code : Nat
  sect : Nat
  offs : Nat
  deriving DecidableEq, Repr

/-- A section: its type, the offset of its header, and its payload (R52). -/
structure Sect where
  type : Nat
  off : Nat
  body : List Byte
  deriving DecidableEq, Repr

/-- A check passes, or refuses with the error. -/
def chk (b : Bool) (e : ChtErr) : Except ChtErr Unit := if b then .ok () else .error e

/-- Every byte of a range is zero (R47). -/
def zeros (bs : List Byte) (off count : Nat) : Bool := ((bs.drop off).take count).all (· == 0)

/-- A number lies within bounds. -/
def within (v lo hi : Nat) : Bool := decide (lo ≤ v) && decide (v ≤ hi)

/-- The section walk (R52, step 5 of R84).
DEDUCED, log entry 99. -/
def walk (bs : List Byte) (last : Nat) : Nat → Nat → Except ChtErr (List Sect)
  | 0, _ => .ok []
  | fuel + 1, pos =>
    if last ≤ pos then .ok []
    else
      let type := leAt bs pos 2
      let len := leAt bs (pos + 4) 4
      if last < pos + 12 || len % 4 != 0 || last < pos + 12 + len then .error ⟨5, type, pos⟩
      else match walk bs last fuel (pos + 12 + len) with
        | .ok rest => .ok (⟨type, pos, (bs.drop (pos + 12)).take len⟩ :: rest)
        | .error e => .error e

/-- Payload sizes of R54: type, required, head bytes, record bytes (0 for none), least and most records. -/
def sectionShapes : List (Nat × Bool × Nat × Nat × Nat × Nat) := [
  (0x01, true, 16, 0, 0, 0), (0x02, true, 16, 0, 0, 0), (0x03, true, 0, 16, 1, 256), (0x04, true, 0, 48, 1, 16),
  (0x05, true, 8, 36, 0, 16), (0x06, false, 0, 24, 0, 512), (0x07, false, 0, 16, 0, 512), (0x08, true, 4, 12, 32, 32),
  (0x09, false, 0, 144, 1, 4), (0x0A, false, 16, 0, 0, 0), (0x0B, true, 0, 12, 0, 64), (0x0C, false, 8, 8, 0, 1024),
  (0x0D, false, 0, 8, 1, 32), (0x0E, false, 8, 0, 0, 0), (0x0F, false, 8, 0, 0, 0), (0x10, false, 0, 8, 1, 4096),
  (0x11, true, 4, 72, 1, 2), (0x12, true, 0, 36, 1, 8192)]

/-- Head and record size of a type. -/
def shapeOf (type : Nat) : Option (Nat × Nat) :=
  (sectionShapes.find? (fun r => r.1 == type)).map (fun r => (r.2.2.1, r.2.2.2.1))

/-- A payload has the size that R54 gives its type; the COUNT of PROGRAM is the number of its records (R75). -/
def countsOk (x : Sect) : Bool :=
  match sectionShapes.find? (fun r => r.1 == x.type) with
  | none => false
  | some (_, _, head, size, lo, hi) =>
    let n := x.body.length - head
    if size = 0 then x.body.length == head
    else decide (head ≤ x.body.length) && n % size == 0 && within (n / size) lo hi && (x.type != 0x11 || leAt x.body 0 1 == n / size)

/-- The records of a payload, each with its offset. -/
def recordsOf (body : List Byte) (head size : Nat) : List (Nat × List Byte) :=
  (List.range ((body.length - head) / size)).map (fun i => (head + size * i, (body.drop (head + size * i)).take size))

/-- The payload of a type. -/
def payload (xs : List Sect) (type : Nat) : Option (List Byte) := (xs.find? (fun x => x.type == type)).map (·.body)

/-- The records of a type, empty where it is absent. -/
def sectRecords (xs : List Sect) (type : Nat) : List (Nat × List Byte) :=
  match payload xs type, shapeOf type with
  | some b, some (head, size) => recordsOf b head size
  | _, _ => []

/-! ### Field ranges and reserved bits (step 12 of R84) -/

/-- R58.
DESIGN CHOICE, log entry 112. -/
def segRange (split : Bool) (r : List Byte) : Bool :=
  within (leAt r 0 1) 1 3 && (split || leAt r 0 1 == 3) && decide (leAt r 1 1 ≤ 8) && decide (leAt r 2 1 < 64) &&
    (decide (leAt r 3 1 < 16) || leAt r 3 1 == 0xFF) && leAt r 8 4 != 0 && leAt r 12 2 != 0xFFFF && zeros r 14 2

/-- R60. -/
def taskRange (split : Bool) (r : List Byte) : Bool :=
  let budget := leAt r 4 4
  let floor := leAt r 12 4
  let delta := leAt r 16 2
  decide (leAt r 0 1 < 16) && decide (leAt r 1 1 < 4) && (split || decide (leAt r 1 1 < 2)) && leAt r 2 1 != 0 && zeros r 3 1 &&
    within budget 10 1000000 && decide (leAt r 8 4 ≤ 1000000) && (if budget ≤ 40 then floor == 0 else decide (floor ≤ budget - 40)) &&
    decide (delta ≤ 1000) && decide (delta < budget) && zeros r 44 4

/-- R61. -/
def tallyRange (r : List Byte) : Bool :=
  let n := leAt r 2 1
  decide (leAt r 0 1 < 16) && decide (leAt r 1 1 ≤ 2) && decide (n ≤ 16) && zeros r 3 1 && zeros r (4 + 2 * n) (32 - 2 * n)

/-- KEY of a bus block (R63): bits 30 and 29 are reserved. -/
def keyRange (key : Nat) : Bool := bitsOf key 30 29 == 0

/-- R63, INGRESS. -/
def ingressRange (r : List Byte) : Bool :=
  let src := leAt r 2 1
  let unit := leAt r 3 1
  decide (leAt r 0 2 < 512) &&
    (match src with
      | 0 => decide (unit ≤ 3) && keyRange (leAt r 4 4)
      | 1 => decide (unit ≤ 7) && keyRange (leAt r 4 4)
      | 2 => unit == 0 && leAt r 13 1 == 1
      | _ => false) &&
    decide (leAt r 8 4 < 131072) && within (leAt r 12 1) 1 64 && within (leAt r 13 1) 1 64 && decide (leAt r 16 4 < 131072) &&
    decide (leAt r 20 1 ≤ 35) && zeros r 21 3

/-- R63, EGRESS. -/
def egressRange (r : List Byte) : Bool :=
  let dst := leAt r 2 1
  decide (leAt r 0 2 < 512) && decide (dst ≤ 1) && decide (leAt r 3 1 ≤ if dst = 0 then 3 else 7) && keyRange (leAt r 4 4) &&
    decide (leAt r 8 4 < 131072) && within (leAt r 12 1) 1 64 && decide (leAt r 13 1 < 16) && zeros r 14 2

/-- R65, one channel record at its position. -/
def fieldRange (i : Nat) (r : List Byte) : Bool :=
  let mode := leAt r 1 1
  let pulse := leAt r 6 1
  leAt r 0 1 == i && decide (mode ≤ 3) && decide (leAt r 2 1 ≤ 104) && decide (leAt r 3 1 ≤ 104) &&
    (mode != 1 || decide (leAt r 3 1 < leAt r 2 1)) && decide (leAt r 4 1 ≤ 100) && decide (leAt r 5 1 < 8) &&
    (if mode = 3 then within pulse 1 50 else pulse == 0) && zeros r 7 1 && decide (bitsOf (leAt r 8 4) 22 17 ≤ 35) &&
    bitsOf (leAt r 8 4) 31 23 == 0

/-- A nominal and a data rate within the ranges of R67. -/
def rateRange (fd : Bool) (nominal data : Nat) : Bool :=
  within nominal 10000 1000000 && decide (data ≤ 8000000) && (fd || data == nominal)

/-- R67. -/
def busRange (r : List Byte) : Bool :=
  let flags := leAt r 1 1
  let n := leAt r 3 1
  let fd := flags.testBit 1
  decide (leAt r 0 1 ≤ 3) && decide (flags < 64) && leAt r 2 1 != 0 && (if flags.testBit 3 then within n 1 16 else n == 0) &&
    (!flags.testBit 3 || flags.testBit 2) && rateRange fd (leAt r 4 4) (leAt r 8 4) && zeros r 12 4 &&
    (List.range (min n 16)).all (fun i => rateRange fd (leAt r (16 + 8 * i) 4) (leAt r (20 + 8 * i) 4)) &&
    zeros r (16 + 8 * n) (128 - 8 * n)

/-- R71, R481, R483. -/
def monitorRange (r : List Byte) : Bool :=
  decide (leAt r 0 1 < 32) && decide (leAt r 3 1 ≤ 1) && layoutValid (leAt r 1 1) (leAt r 2 1) (leAt r 3 1 == 1) (leAt r 4 2) (leAt r 6 2)

/-- R76. -/
def frameRange (r : List Byte) : Bool :=
  let v := leNat r
  let xbar := bitsOf v 287 280
  let entry := bitsOf v 279 264
  let blockwise := decide (2 ≤ xbar)
  decide (xbar ≤ 3) && decide (entry < if blockwise then 512 else 32) && bitsOf v 263 64 == 0 &&
    (if xbar = 2 then decide (bitsOf v 63 48 < 32768) else bitsOf v 63 48 == 0) && bitsOf v 47 32 == 0 &&
    (if blockwise then decide (bitsOf v 30 24 < 64) else bitsOf v 30 24 == 0) && bitsOf v 23 23 == 0 &&
    (if blockwise then bitsOf v 22 17 == 0 else decide (bitsOf v 22 17 ≤ 35))

/-- The fixed part of a section: a payload of one record, or the head before its records (R56, R57, R61, R65, R68, R70, R72, R73, R75).
DEDUCED, log entry 99; DESIGN CHOICE, log entry 111. -/
def headRange (splitAllowed split : Bool) (type : Nat) (b : List Byte) : Bool :=
  match type with
  | 0x01 =>
    let offset := leAt b 4 4
    let ck := leAt b 8 4
    decide (leAt b 0 1 ≤ 1) && decide (leAt b 1 1 ≤ 1) && zeros b 2 2 && zeros b 12 4 && (!split || splitAllowed) &&
      (split || leAt b 1 1 == 0) &&
      (if split then offset == 0 && ck == 0
       else within offset 256 65536 && (ck == 0 || within ck 16384 16777216 && ck % 4096 == 0))
  | 0x02 => (List.range 10).all (fun i => within (leAt b i 1) 2 64) && decide (leAt b 10 1 ≤ 2) && within (leAt b 11 1) 6 15 &&
      within (leAt b 12 2) 16 4096 && zeros b 14 2
  | 0x05 => leAt b 0 2 != 0 && decide (leAt b 2 1 ≤ 1) && zeros b 3 5
  | 0x08 => within (leAt b 0 1) 1 250 && zeros b 1 3
  | 0x0A => decide (leAt b 0 1 ≤ 1) && within (leAt b 1 1) 1 24 && zeros b 2 2 && leAt b 4 4 != 0 && zeros b 8 8
  | 0x0C => leAt b 0 2 != 0 && within (leAt b 2 2) 1 3600 && zeros b 4 4
  | 0x0E => decide (leAt b 0 1 < 4) && within (leAt b 1 1) 1 40 && decide (leAt b 2 1 ≤ 20) && zeros b 3 5
  | 0x0F => decide (leAt b 0 4 < 2 ^ 26) && zeros b 4 4
  | 0x11 => (split || leAt b 0 1 == 1) && zeros b 1 3
  | _ => true

/-- One record of a section (R58-R76).
DESIGN CHOICE, log entry 112. -/
def recordRange (split : Bool) (type i : Nat) (r : List Byte) : Bool :=
  match type with
  | 0x03 => segRange split r
  | 0x04 => taskRange split r
  | 0x05 => tallyRange r
  | 0x06 => ingressRange r
  | 0x07 => egressRange r
  | 0x08 => fieldRange i r
  | 0x09 => busRange r
  | 0x0B => zeros r 2 2 && leAt r 4 4 % 8 == 0
  | 0x0C => zeros r 2 2 && leAt r 4 2 != 0 && within (leAt r 6 2) 1 3600
  | 0x0D => monitorRange r
  | 0x10 => within (leAt r 4 2) 1 4096 && within (leAt r 6 1) 1 3 && (split || leAt r 6 1 == 3) && zeros r 7 1
  | 0x11 => within (leAt r 0 1) 1 3 && (split || leAt r 0 1 == 3) && zeros r 1 3 && within (leAt r 4 4) 1 1048576
  | 0x12 => frameRange r
  | _ => true

/-- Where a section first breaks step 12: the offset of its header, or of the record (R84).
DEDUCED, log entry 99. -/
def rangeFail (splitAllowed : Bool) (bs : List Byte) (split : Bool) (x : Sect) : Option Nat :=
  match shapeOf x.type with
  | none => none
  | some (head, size) =>
    if !zeros bs (x.off + 2) 2 || !headRange splitAllowed split x.type x.body then some x.off
    else
      let rs := if size = 0 then [] else recordsOf x.body head size
      (((List.range rs.length).zip rs).find? (fun p => !recordRange split x.type p.1 p.2.2)).map (fun p => x.off + 12 + p.2.1)

/-! ### Settings (R56-R76) -/

def decodeSeg (r : List Byte) : SegRec where
  lanes := leAt r 0 1
  kind := leAt r 1 1
  flags := leAt r 2 1
  owner := leAt r 3 1
  base := leAt r 4 4
  limit := leAt r 8 4
  segId := leAt r 12 2

def decodeTask (r : List Byte) : TaskRec where
  task := Fin.ofNat 16 (leAt r 0 1)
  autostart := (leAt r 1 1).testBit 0
  laneB := (leAt r 1 1).testBit 1
  ovrLimit := leAt r 2 1
  budget := leAt r 4 4
  minGap := leAt r 8 4
  floor := leAt r 12 4
  delta := leAt r 16 2
  ctxSeg := leAt r 18 2
  replay := leAt r 20 4
  entry := leAt r 24 4
  sel := (List.range 8).map (fun i => leAt r (28 + 2 * i) 2)

def decodeTally (r : List Byte) : TallyRec where
  task := Fin.ofNat 16 (leAt r 0 1)
  reaction := leAt r 1 1
  ntokens := leAt r 2 1
  tokens := (List.range (leAt r 2 1)).map (fun i => BitVec.ofNat 16 (leAt r (4 + 2 * i) 2))

def decodeIngress (r : List Byte) : IngRec where
  block := Fin.ofNat 512 (leAt r 0 2)
  src := leAt r 2 1
  unit := leAt r 3 1
  key := BitVec.ofNat 32 (leAt r 4 4)
  image := leAt r 8 4
  words := leAt r 12 1
  frames := leAt r 13 1
  fresh := leAt r 14 2
  validWord := leAt r 16 4
  validBit := leAt r 20 1

def decodeEgress (r : List Byte) : EgrRec where
  block := Fin.ofNat 512 (leAt r 0 2)
  dst := leAt r 2 1
  unit := leAt r 3 1
  key := BitVec.ofNat 32 (leAt r 4 4)
  image := leAt r 8 4
  words := leAt r 12 1
  task := Fin.ofNat 16 (leAt r 13 1)

def decodeField (r : List Byte) : FieldRec where
  mode := BitVec.ofNat 2 (leAt r 1 1)
  on := BitVec.ofNat 8 (leAt r 2 1)
  off := BitVec.ofNat 8 (leAt r 3 1)
  filter := BitVec.ofNat 8 (leAt r 4 1)
  wireBreak := (leAt r 5 1).testBit 0
  safeOn := (leAt r 5 1).testBit 1
  pullTest := (leAt r 5 1).testBit 2
  pulse := BitVec.ofNat 8 (leAt r 6 1)
  word := bitsOf (leAt r 8 4) 16 0
  bitix := bitsOf (leAt r 8 4) 22 17

def decodeBus (r : List Byte) : BusRec where
  bus := Fin.ofNat 4 (leAt r 0 1)
  flags := leAt r 1 1
  alone := leAt r 2 1
  nominal := leAt r 4 4
  data := leAt r 8 4
  rates := (List.range (leAt r 3 1)).map (fun i => (leAt r (16 + 8 * i) 4, leAt r (20 + 8 * i) 4))

def decodeFrame (r : List Byte) : FrameRec :=
  let v := leNat r
  { xbar := bitsOf v 287 280, entry := bitsOf v 279 264, stage := bitsOf v 63 48, en := v.testBit 31
    words := bitsOf v 30 24, bitix := bitsOf v 22 17, word := bitsOf v 16 0 }

/-- What the pair hash covers (R336): the stream from the header to the last section, with the UNIT byte of PAIR read as zero and without HCRC
and the SCRC of each section. -/
def pairHashInput (bs : List Byte) (xs : List Sect) : List Byte :=
  bs.take 60 ++ xs.flatMap (fun x =>
    (bs.drop x.off).take 8 ++ (if x.type = 0x0A then 0 :: x.body.drop 1 else x.body))

/-- The settings of a stream whose sections have passed step 11, with the defaults of R55 for absent sections. -/
def decodeCharter (bs : List Byte) (xs : List Sect) : Charter :=
  let sec := fun t => (payload xs t).getD []
  let recs := fun t => (sectRecords xs t).map (·.2)
  let mode := sec 1
  let isl := sec 2
  let evt := payload xs 0x0C
  let age := payload xs 0x0E
  let last := bs.length - 192
  { head := {
      generation := leAt bs 6 2
      serial := BitVec.ofNat 32 (leAt bs 16 4)
      minFw := BitVec.ofNat 32 (leAt bs 20 4)
      split := leAt mode 0 1 == 1
      scrubDis := (leAt mode 1 1).testBit 0
      offset := leAt mode 4 4
      checkpoint := leAt mode 8 4
      div := (List.range 10).map (fun i => leAt isl i 1)
      ref := leAt isl 10 1
      xoscWin := leAt isl 11 1
      rampStep := leAt isl 12 2
      wdtPeriod := leAt (sec 5) 0 2
      wdtClk := leAt (sec 5) 2 1
      silenceMs := leAt (sec 8) 0 1
      evtK := match evt with | some b => leAt b 0 2 | none => 64
      evtW := match evt with | some b => leAt b 2 2 | none => 10
      ageFlags := match age with | some b => leAt b 0 1 | none => 3
      ageLife := match age with | some b => leAt b 1 1 | none => 30
      ageVmax := match age with | some b => leAt b 2 1 | none => 20
      grants := BitVec.ofNat 32 (leAt (sec 0x0F) 0 4)
      keyix := leAt bs (last + 4) 1
      pubkey := (bs.drop (last + 8)).take 57
      pairHash := Config.shake256 32 (pairHashInput bs xs)
      hash := Config.shake256 64 bs }
    segs := (recs 3).map decodeSeg
    tasks := (recs 4).map decodeTask
    tally := (recs 5).map decodeTally
    ingress := (recs 6).map decodeIngress
    egress := (recs 7).map decodeEgress
    field := (recs 8).map decodeField
    buses := (recs 9).map decodeBus
    pair := (payload xs 0x0A).map (fun b => ⟨leAt b 0 1, leAt b 1 1, BitVec.ofNat 32 (leAt b 4 4)⟩)
    pillar := (recs 0x0B).map (fun r => ⟨leAt r 0 2, leAt r 4 4, leAt r 8 4⟩)
    events := (recs 0x0C).map (fun r => ⟨leAt r 0 2, leAt r 4 2, leAt r 6 2⟩)
    monitors := (recs 0x0D).map (fun r => ⟨Fin.ofNat 32 (leAt r 0 1), leAt r 1 1, leAt r 2 1, leAt r 3 1 == 1, leAt r 4 4⟩)
    edits := (recs 0x10).map (fun r => ⟨leAt r 0 4, leAt r 4 2, leAt r 6 1⟩)
    programs := (recs 0x11).map (fun r => ⟨leAt r 0 1, leAt r 4 4, (r.drop 8).take 64⟩)
    frames := (recs 0x12).map decodeFrame }

/-! ### Cross-checks (step 13 of R84) -/

/-- Lanes that a part of this charter uses (R75): both in paired mode, those that PROGRAM names in split mode. -/
def lanesInUse (c : Charter) : Nat := if c.head.split then c.programs.foldl (fun m p => m ||| p.lanes) 0 else 3

/-- Lanes that run a task (R60, R111). -/
def taskMask (c : Charter) (t : TaskRec) : Nat := if c.head.split then (if t.laneB then 2 else 1) else 3

/-- The lanes of a mask. -/
def maskLanes (m : Nat) : List Nat := [0, 1].filter (fun l => m.testBit l)

/-- Consecutive words lie inside one segment of a kind, in every lane of a mask (R64). -/
def insideKind (c : Charter) (a n kind mask : Nat) : Bool :=
  (maskLanes mask).all (fun l =>
    c.segs.any (fun g => g.kind == kind && g.lanes.testBit l && decide (g.base ≤ a) && decide (a + n ≤ g.base + g.limit)))

/-- Two word ranges share a word. -/
def overlap (a n b m : Nat) : Bool := decide (a < b + m) && decide (b < a + n)

/-- No entry before position `i` meets a test. -/
def noneBefore {α : Type} (l : List α) (i : Nat) (p : α → Bool) : Bool := (l.take i).all (fun x => !p x)

/-- R28, R59, for the record at position `i`. -/
def segCross (c : Charter) (i : Nat) (g : SegRec) : Bool :=
  let stop := g.base + g.limit
  let inMem := decide (stop ≤ 0x200000)
  let inImage := decide (0x200000 ≤ g.base) && decide (stop ≤ 0x220000)
  let f := g.flags
  let retained : Nat → Nat := fun l => ((c.segs.filter (fun (x : SegRec) => x.kind == 3 && x.lanes.testBit l)).map (·.limit)).sum
  (inMem || inImage) && (decide (2 ≤ g.kind) || inImage) && (g.kind < 5 || inMem) &&
    (!f.testBit 2 || g.kind == 5 && !f.testBit 1) && (g.kind != 0 || !f.testBit 1) &&
    (decide (5 ≤ g.kind) || f.testBit 3) && (g.kind != 5 && g.kind != 8 || !f.testBit 3) &&
    (f.testBit 4 == (g.kind == 3)) && (!f.testBit 5 || within g.kind 2 4) && (g.kind != 8 || g.owner != 0xFF) &&
    (g.kind != 3 || (maskLanes g.lanes).all (fun l => decide (retained l ≤ 16384))) &&
    noneBefore c.segs i (fun x => x.segId == g.segId ||
      (x.lanes &&& g.lanes) != 0 && overlap x.base x.limit g.base g.limit && (x.flags.testBit 1 || f.testBit 1))

/-- A segment by its SEG_ID. -/
def segById (c : Charter) (id : Nat) : Option SegRec := c.segs.find? (fun g => g.segId == id)

/-- R60, R75. -/
def taskCross (c : Charter) (i : Nat) (t : TaskRec) : Bool :=
  let m := taskMask c t
  let reach := fun (g : SegRec) => (g.lanes &&& m) == m
  noneBefore c.tasks i (fun x => x.task == t.task) &&
    (match segById c (t.sel.getD 0 0xFFFF) with
      | some g => g.kind == 5 && reach g && decide (t.entry < g.limit)
      | none => false) &&
    (match segById c t.ctxSeg with
      | some g => g.kind == 8 && g.owner == t.task.val && reach g
      | none => false) &&
    (m &&& lanesInUse c) == m &&
    t.sel.all (fun id => id == 0xFFFF || (match segById c id with
      | some g => reach g && (g.owner == t.task.val || g.owner == 0xFF)
      | none => false))

/-- R61, R62.
DESIGN CHOICE, log entry 113. -/
def tallyCross (c : Charter) (i : Nat) (r : TallyRec) : Bool :=
  c.tasks.any (fun t => t.task == r.task) && noneBefore c.tally i (fun x => x.task == r.task) && (!c.head.split || r.reaction != 0)

/-- The BUSES record of a bus. -/
def busOf (c : Charter) (unit : Nat) : Option BusRec := c.buses.find? (fun b => b.bus.val == unit)

/-- A flag of a bus. -/
def busFlag (c : Charter) (unit k : Nat) : Bool := match busOf c unit with | some b => b.flags.testBit k | none => false

/-- An identifier range of a block on a bus: unit, extended, first and last identifier (R432). -/
def ingressIds (r : IngRec) : Option (Nat × Bool × Nat × Nat) :=
  if r.src = 0 then some (r.unit, r.key.getLsbD 31, bitsOf r.key.toNat 28 0, bitsOf r.key.toNat 28 0 + r.frames - 1) else none

def egressIds (r : EgrRec) : Option (Nat × Bool × Nat × Nat) :=
  if r.dst = 0 then some (r.unit, r.key.getLsbD 31, bitsOf r.key.toNat 28 0, bitsOf r.key.toNat 28 0 + (r.words + 10) / 11 - 1) else none

/-- An identifier range stays within its width, meets no earlier range, and holds no Obtum identifier of a service bus (R432, R438). -/
def idsOk (c : Charter) (earlier : List (Nat × Bool × Nat × Nat)) (x : Option (Nat × Bool × Nat × Nat)) : Bool :=
  match x with
  | none => true
  | some (unit, ext, lo, hi) =>
    let u := match c.pair with | some p => p.unit | none => 0
    decide (hi < if ext then 2 ^ 29 else 2 ^ 11) &&
      earlier.all (fun e => e.1 != unit || e.2.1 != ext || decide (hi < e.2.2.1) || decide (e.2.2.2 < lo)) &&
      (!busFlag c unit 4 || ext || !(within (0x6F0 + u) lo hi || within (0x6F8 + u) lo hi))

/-- R64, R432. -/
def ingressCross (c : Charter) (i : Nat) (r : IngRec) : Bool :=
  let used := lanesInUse c
  let p := (r.words + r.frames - 1) / r.frames
  noneBefore c.ingress i (fun x => x.block == r.block || overlap x.image x.words r.image r.words) &&
    insideKind c (0x200000 + r.image) r.words 0 used && insideKind c (0x200000 + r.validWord) 1 0 used &&
    (r.src != 1 || r.key == 0 && r.frames == 1) &&
    (r.src != 0 || decide (5 * p ≤ if busFlag c r.unit 1 then 64 else 8) && decide ((r.frames - 1) * p < r.words)) &&
    idsOk c ((c.ingress.take i).filterMap ingressIds) (ingressIds r)

/-- R63, R64, R432. -/
def egressCross (c : Charter) (i : Nat) (r : EgrRec) : Bool :=
  let slots := ((c.egress.take (i + 1)).filter (fun (x : EgrRec) => x.dst == 1 && x.unit == r.unit)).map
    (fun x => (8 + 5 * x.words + 3) / 4 * 4)
  noneBefore c.egress i (fun x => x.block == r.block) && c.tasks.any (fun t => t.task == r.task) &&
    insideKind c (0x200000 + r.image) r.words 1 (lanesInUse c) &&
    (r.dst != 0 || busFlag c r.unit 0 && busFlag c r.unit 1) &&
    (r.dst != 1 || !c.ingress.any (fun x => x.src == 1 && x.unit == r.unit) && decide (slots.sum ≤ 4080)) &&
    idsOk c (c.ingress.filterMap ingressIds ++ (c.egress.take i).filterMap egressIds) (egressIds r)

/-- R66, for the channel at its position. -/
def fieldCross (c : Charter) (i : Nat) (f : FieldRec) : Bool :=
  match f.mode.toNat with
  | 0 => true
  | 1 => !f.safeOn && !f.pullTest && f.pulse == 0 &&
      c.ingress.any (fun g => g.src == 2 && g.key.getLsbD i && decide (g.image ≤ f.word) && decide (f.word < g.image + g.words))
  | _ => f.on == 0 && f.off == 0 && f.filter == 0 && !f.wireBreak && c.segs.any (fun g => g.kind == 1 && decide (g.base ≤ 0x200000 + f.word) && decide (0x200000 + f.word < g.base + g.limit))

/-- A rate that the protocol clock can produce with a whole number of quanta from `lo` to `hi` (R400): BRP and that number. -/
def rateQuanta (div rate lo hi : Nat) : Option (Nat × Nat) :=
  ((List.range 32).map (fun i => (i + 1, div * (i + 1) * rate))).findSome? (fun p =>
    if p.2 ≠ 0 ∧ 2000000000 % p.2 = 0 ∧ lo ≤ 2000000000 / p.2 ∧ 2000000000 / p.2 ≤ hi then some (p.1, 2000000000 / p.2) else none)

/-- Both rates of a pair can be produced (R67, R400). -/
def pairProducible (div : Nat) (p : Nat × Nat) : Bool := (rateQuanta div p.1 8 257).isSome && (rateQuanta div p.2 5 49).isSome

/-- R67, R400. -/
def busCross (c : Charter) (i : Nat) (b : BusRec) : Bool :=
  noneBefore c.buses i (fun x => x.bus == b.bus) && (!b.flags.testBit 5 || c.head.grants.getLsbD (10 + b.bus.val)) &&
    ((b.nominal, b.data) :: b.rates).all (pairProducible (c.head.div.getD 8 25))

/-- R69. -/
def pillarCross (c : Charter) (i : Nat) (r : PilRec) : Bool :=
  (match segById c r.segId with
    | some g => g.kind == 3 && r.words == g.limit && (!c.head.split || g.lanes != 3)
    | none => false) &&
    decide (r.offset + 8 * r.words ≤ 248 * 1024) &&
    noneBefore c.pillar i (fun x => x.segId == r.segId || overlap x.offset (8 * x.words) r.offset (8 * r.words))

/-- R74. -/
def editCross (c : Charter) (r : EditRec) : Bool :=
  c.segs.any (fun g => g.flags.testBit 5 && (g.lanes &&& r.lanes) == r.lanes && decide (g.base ≤ r.addr) &&
    decide (r.addr + r.count ≤ g.base + g.limit))

/-- R75: the lanes are named once, and the image fits the CODE segment of each lane named, the one that it is loaded into. -/
def programCross (c : Charter) (i : Nat) (p : ProgRec) : Bool :=
  noneBefore c.programs i (fun x => (x.lanes &&& p.lanes) != 0) &&
    (maskLanes p.lanes).all (fun l => match c.segs.find? (fun g => g.kind == 5 && g.lanes.testBit l) with
      | some g => decide (p.length ≤ g.limit)
      | none => false)

/-- What a frame must carry for its section entry (R77): WORD, BITIX and WORDS. -/
def frameEntry (c : Charter) (xbar entry : Nat) : Option (Nat × Nat × Nat) :=
  match xbar with
  | 0 => (c.field[entry]?).bind (fun f => if f.mode == 1 then some (f.word, f.bitix, 0) else none)
  | 1 => (c.field[entry]?).bind (fun f => if 2 ≤ f.mode.toNat then some (f.word, f.bitix, 0) else none)
  | 2 => (c.ingress.find? (fun r => r.block.val == entry)).map (fun r => (r.image, 0, r.words - 1))
  | 3 => (c.egress.find? (fun r => r.block.val == entry)).map (fun r => (r.image, 0, r.words - 1))
  | _ => none

/-- The staging area of a frame, for an ingress block of several frames (R77). -/
def stageArea (c : Charter) (f : FrameRec) : Option (Nat × Nat) :=
  if f.xbar = 2 then
    (c.ingress.find? (fun r => r.block.val == f.entry)).bind (fun r => if 1 < r.frames then some (f.stage, r.words) else none)
  else none

/-- R77, for the frame at position `i`. -/
def frameCross (c : Charter) (i : Nat) (f : FrameRec) : Bool :=
  (match i, c.frames[i - 1]? with
    | 0, _ => true
    | _, some e => decide (e.xbar * 65536 + e.entry < f.xbar * 65536 + f.entry)
    | _, none => true) &&
    f.en && frameEntry c f.xbar f.entry == some (f.word, f.bitix, f.words) &&
    (match stageArea c f with
      | some (a, n) => decide (a + n ≤ 32768) && ((c.frames.take i).filterMap (stageArea c)).all (fun e => !overlap e.1 e.2 a n)
      | none => true)

/-- Every in-use channel and every block has its frame (R77). -/
def framesComplete (c : Charter) : Bool :=
  let has := fun x e => c.frames.any (fun f => f.xbar == x && f.entry == e)
  ((List.range c.field.length).zip c.field).all (fun p => p.2.mode == 0 || has (if p.2.mode == 1 then 0 else 1) p.1) &&
    c.ingress.all (fun r => has 2 r.block.val) && c.egress.all (fun r => has 3 r.block.val)

/-- The checks of one section, record by record: each with the offset from the section header that a failure names. -/
def indexed {α : Type} (head size : Nat) (l : List α) (f : Nat → α → Bool) : List (Nat × Bool) :=
  ((List.range l.length).zip l).map (fun p => (12 + head + size * p.1, f p.1 p.2))

/-- No record of a list repeats a key. -/
def unrepeated {α : Type} (key : α → Nat) (l : List α) (i : Nat) (x : α) : Bool := noneBefore l i (fun y => key y == key x)

/-- Every cross-check, section by section in stream order: section type, offset from the section header that a failure names (the
record's, or 0 for a check of the section as a whole), and whether it holds.
DEDUCED, log entry 99; DESIGN CHOICE, log entry 115. -/
def crossChecks (c : Charter) : List (Nat × Nat × Bool) :=
  let tag := fun (t : Nat) (l : List (Nat × Bool)) => l.map (fun p => (t, p.1, p.2))
  let split := c.head.split
  tag 0x02 [(0, (List.range 10).all (fun i => decide ((nominalDivs.toList).getD i 2 ≤ c.head.div.getD i 0)) &&
    (split || c.head.div.getD 0 0 == c.head.div.getD 1 0))] ++
  tag 0x03 (indexed 0 16 c.segs (segCross c)) ++
  tag 0x04 (indexed 0 48 c.tasks (taskCross c)) ++
  tag 0x05 (indexed 8 36 c.tally (tallyCross c)) ++
  tag 0x06 (indexed 0 24 c.ingress (ingressCross c)) ++
  tag 0x07 (indexed 0 16 c.egress (egressCross c)) ++
  tag 0x08 (indexed 4 12 c.field (fieldCross c)) ++
  tag 0x09 (indexed 0 144 c.buses (busCross c)) ++
  tag 0x0B (indexed 0 12 c.pillar (pillarCross c)) ++
  tag 0x0B [(0, c.segs.all (fun g => g.kind != 3 || c.pillar.any (fun r => r.segId == g.segId)))] ++
  tag 0x0C (indexed 8 8 c.events (unrepeated (fun r : EvtRec => r.code) c.events)) ++
  tag 0x0D (indexed 0 8 c.monitors (unrepeated (fun r : MonRec => r.point.val) c.monitors)) ++
  tag 0x0E [(0, split || c.head.ageFlags.testBit 0)] ++
  tag 0x10 (indexed 0 8 c.edits (fun _ r => editCross c r)) ++
  tag 0x11 (indexed 4 72 c.programs (programCross c)) ++
  tag 0x12 (indexed 0 36 c.frames (frameCross c)) ++
  tag 0x12 [(0, framesComplete c)]

/-! ### The whole load (R81, R84) -/

/-- What the loader meets beside the stream: the owner key hashes that are programmed and not revoked, SPLIT_OK, the part's own generation
and the running firmware version. -/
structure LoadEnv where
  owner : Nat → Option (List Byte)
  splitOk : Bool
  partGen : Nat
  fwVersion : Nat

/-- Header offset of a section. -/
def sectOff (xs : List Sect) (t : Nat) : Nat := match xs.find? (fun x => x.type == t) with | some x => x.off | none => 0

/-- Types in strictly ascending order (R53); the first section that breaks the order or has no listed type. -/
def typeFail : Nat → List Sect → Option Sect
  | _, [] => none
  | prev, x :: r => if (shapeOf x.type).isNone || x.type ≤ prev then some x else typeFail x.type r

/-- Steps 2 to 9 of R84: the sections of a stream whose LENGTH is right. -/
def loadFrame (env : LoadEnv) (bs : List Byte) : Except ChtErr (List Sect) := do
  let last := bs.length - 192
  chk (leAt bs 0 4 == 0x48435A4C) ⟨2, 0, 0⟩
  chk (leAt bs 60 4 == (crc32c (bs.take 60)).toNat) ⟨3, 0, 0⟩
  chk (leAt bs 4 2 == 1 && decide (leAt bs 20 4 ≤ env.fwVersion)) ⟨4, 0, 0⟩
  let xs ← walk bs last bs.length 64
  chk (xs.length == leAt bs 12 2) ⟨5, 0, 0⟩
  match xs.find? (fun x => leAt bs (x.off + 8) 4 != (crc32c ((bs.drop x.off).take 8 ++ x.body)).toNat) with
  | some x => .error ⟨6, x.type, x.off⟩
  | none => pure ()
  let pub := (bs.drop (last + 8)).take 57
  chk (leAt bs last 4 == 0x47535A4C && env.owner (leAt bs (last + 4) 1) == some (Config.shake256 32 pub)) ⟨7, 0, last⟩
  chk (Config.ed448phVerify (leBytes 4 0x48435A4C) pub (bs.take (bs.length - 114)) (bs.drop (bs.length - 114))) ⟨8, 0, last⟩
  chk (decide (leAt bs 6 2 ≤ env.partGen)) ⟨9, 0, 0⟩
  pure xs

/-- Steps 10 to 13 of R84: the settings.
DEDUCED, log entry 99; DESIGN CHOICE, log entry 111. -/
def loadSections (env : LoadEnv) (bs : List Byte) (xs : List Sect) : Except ChtErr Charter := do
  let last := bs.length - 192
  match typeFail 0 xs with
  | some x => .error ⟨10, x.type, x.off⟩
  | none => pure ()
  match sectionShapes.find? (fun r => r.2.1 && !xs.any (fun x => x.type == r.1)) with
  | some r => .error ⟨11, r.1, 0⟩
  | none => pure ()
  match xs.find? (fun x => !countsOk x) with
  | some x => .error ⟨11, x.type, x.off⟩
  | none => pure ()
  chk (zeros bs 14 2 && zeros bs 56 4 && leAt bs 6 2 != 0) ⟨12, 0, 0⟩
  let split := leAt ((payload xs 1).getD []) 0 1 == 1
  match xs.findSome? (fun x => (rangeFail env.splitOk bs split x).map (fun o => (x.type, o))) with
  | some (t, o) => .error ⟨12, t, o⟩
  | none => pure ()
  chk (zeros bs (last + 5) 3 && zeros bs (last + 65) 13) ⟨12, 0, last⟩
  let c := decodeCharter bs xs
  match (crossChecks c).find? (fun p => !p.2.2) with
  | some (t, o, _) => .error ⟨13, t, sectOff xs t + o⟩
  | none => pure ()
  pure c

/-- The stream of a readable slot: its LENGTH bytes (step 1 of R84). -/
def loadStream (plain : Option (List Byte)) : Except ChtErr (List Byte) :=
  match plain with
  | none => .error ⟨1, 0, 0⟩
  | some bs =>
    let n := leAt bs 8 4
    if within n 256 4194304 && n % 4 == 0 && decide (n ≤ bs.length) then .ok (bs.take n) else .error ⟨1, 0, 0⟩

/-- The whole load (R84): the plain text of the active charter slot and of the active program image, and whether the second pass read other
bytes.
DESIGN CHOICE, log entry 128. -/
def loadCharter (env : LoadEnv) (plain program : Option (List Byte)) (rereadDiffers : Bool) : Except ChtErr Charter := do
  let bs ← loadStream plain
  let xs ← loadFrame env bs
  let c ← loadSections env bs xs
  let off := sectOff xs 0x11
  match (((List.range c.programs.length).zip c.programs).find? (fun p =>
      (program.map (Config.shake256 64)) != some p.2.hash)) with
  | some p => .error ⟨14, 0x11, off + 16 + 72 * p.1⟩
  | none => pure ()
  chk (!rereadDiffers) ⟨15, 0, 0⟩
  pure c

end Sys2Proof.Machine
end

