-- ==== Sys2Proof/Machine/Images.lean ====
section
/-! DEFINITION. Images in flash (R531-R543): slots and their headers, the encryption of R536, the directory (R538, R539), the
verification of R541 and the owner key fuses. -/

namespace Sys2Proof.Machine

open Sys2Proof

def State.modXsp (s : State) (f : XspState → XspState) : State := { s with xsp := f s.xsp }
def State.modSec (s : State) (f : SecState → SecState) : State := { s with sec := f s.sec }

/-- Index of an image kind. -/
def kindIx (k : ImageKind) : Fin 3 :=
  match k with
  | .firmware => 0
  | .charter => 1
  | .program => 2

/-- The three kinds. -/
def allKinds : List ImageKind := [.firmware, .charter, .program]

/-! ### Fuses that judge keys (R543, R574) -/

/-- The bytes of consecutive fuse words.
PRESUMED, log entry 48. -/
def fuseBytes (s : State) (first count : Nat) : List Byte :=
  (List.range count).flatMap (fun i => leBytes 4 (s.fuses.word.toArray.getD (first + i) 0).toNat)

/-- The key hash of an owner slot, none where it is unprogrammed or revoked (R534, R543).
PRESUMED, log entry 48. -/
def ownerKey (s : State) (i : Nat) : Option (List Byte) :=
  if i < 4 ∧ (fuse40 s).testBit i ∧ ¬ (fuse40 s).testBit (4 + i) then some (fuseBytes s (8 + 8 * i) 8) else none

/-- The vendor root key hash.
PRESUMED, log entry 48. -/
def vendorKey (s : State) : List Byte := fuseBytes s 0 8

/-- Every fuse but the integrity values, as bytes (R543).
PRESUMED, log entry 48. -/
def otherFuses (f : Fuses) : List Byte := (f.word.toList.take 42).flatMap (fun w => leBytes 4 w.toNat) ++ [BitVec.ofNat 8 (bit f.x32Load)]

/-- The two integrity values agree with the other fuses (R543): word 42 holds the CRC-32C of words 0 to 39, word 43 that of the rest.
DESIGN CHOICE, log entry 46. -/
def fusesAgree (f : Fuses) : Bool :=
  f.word[42] == crc32c ((otherFuses f).take 160) && f.word[43] == crc32c ((otherFuses f).drop 160)

/-- What the charter loader meets in this part. -/
def loadEnv (s : State) : LoadEnv where
  owner := ownerKey s
  splitOk := fuseSplitOk s
  partGen := fusePartGen s
  fwVersion := s.sec.fwVersion.toNat

/-! ### Slots (R532, R533) -/

/-- One slot of a kind: true for B. -/
def slotAt (f : Flash) (k : ImageKind) (b : Bool) : FlashSlot :=
  match k, b with
  | .firmware, false => f.fwA
  | .firmware, true => f.fwB
  | .charter, false => f.chA
  | .charter, true => f.chB
  | .program, false => f.prA
  | .program, true => f.prB

def setSlot (f : Flash) (k : ImageKind) (b : Bool) (x : FlashSlot) : Flash :=
  match k, b with
  | .firmware, false => { f with fwA := x }
  | .firmware, true => { f with fwB := x }
  | .charter, false => { f with chA := x }
  | .charter, true => { f with chB := x }
  | .program, false => { f with prA := x }
  | .program, true => { f with prB := x }

/-- A region of the flash layout: port, first byte address and size in bytes (R532). -/
structure FlashArea where
  port1 : Bool
  base : Nat
  size : Nat
  deriving DecidableEq, Repr

/-- Directory page 0 or 1 (R532). -/
def directoryArea (page1 : Bool) : FlashArea := ⟨false, if page1 then 0x10000 else 0, 0x10000⟩

/-- The header of a slot (R532). -/
def headerArea (k : ImageKind) (b : Bool) : FlashArea :=
  match k with
  | .firmware => ⟨false, if b then 0xA00000 else 0x100000, 0x100000⟩
  | .charter => ⟨false, if b then 0x1800000 else 0x1300000, 0x100000⟩
  | .program => ⟨true, if b then 0x4100000 else 0, 0x100000⟩

/-- The image or content of a slot: it follows the header (R532). -/
def contentArea (k : ImageKind) (b : Bool) : FlashArea :=
  let h := headerArea k b
  ⟨h.port1, h.base + h.size, match k with | .firmware => 0x800000 | .charter => 0x400000 | .program => 0x4000000⟩

/-- Every address of flash that the part uses (R532); all others are never written. -/
def flashAreas : List FlashArea :=
  [directoryArea false, directoryArea true] ++
    allKinds.flatMap (fun k => [false, true].flatMap (fun b => [headerArea k b, contentArea k b]))

/-- A device has the size that its port asks: 32 MiB to 256 MiB on port 0, 256 MiB on port 1 (R531). -/
def portOk (s : State) (port1 : Bool) : Bool :=
  if port1 then s.xsp.p1 == 256 else decide (32 ≤ s.xsp.p0) && decide (s.xsp.p0 ≤ 256)

/-- The flash port of a kind was discovered with a device large enough (R531, R532). -/
def kindPort (s : State) (k : ImageKind) : Bool := portOk s (headerArea k false).port1

/-- Bytes 0 to 251 of a slot header (R533). -/
def headerBytes (h : SlotHeader) : List Byte :=
  leBytes 4 h.magic.toNat ++ [h.kind, h.slot] ++ leBytes 2 0 ++ leBytes 4 h.gen.toNat ++ leBytes 4 h.length.toNat ++
    (h.tag ++ List.replicate 16 0).take 16 ++ (h.wrap ++ List.replicate 128 0).take 128 ++ List.replicate 92 0

/-- "LZSL", "LZSG", "LZFW", "LZPG" and "LZDR" as little-endian numbers. -/
def magicSlot : Nat := 0x4C535A4C
def magicTrailer : Nat := 0x47535A4C
def magicFirmware : Nat := 0x57465A4C
def magicCharter : Nat := 0x48435A4C
def magicProgram : Nat := 0x47505A4C
def magicDirectory : Nat := 0x52445A4C

/-- Largest plain text of a slot: what its content area holds (R532, R534, R535). -/
def largestSlot (k : ImageKind) : Nat := (contentArea k false).size

/-- Header checks of R541 code 1. -/
def headerOk (k : ImageKind) (b : Bool) (h : SlotHeader) : Bool :=
  h.magic.toNat == magicSlot && h.kind.toNat == k.code && h.slot.toNat == bit b && h.hcrc == crc32c (headerBytes h) &&
    within h.length.toNat 1 (largestSlot k)

/-- Stored blocks of a length (R533). -/
def blockCount (length : Nat) : Nat := (length + 4095) / 4096

/-! ### Encryption (R536, R537) -/

/-- The bytes that AES-256-GCM gives for a ciphertext from its first byte on, whatever its tag. -/
def gcmStream (key iv ct : List Byte) : List Byte := (ct.zipIdx).map (fun p => p.1 ^^^ Config.aesKeystream key iv p.2)

/-- AES-256-GCM decryption; none where the tag fails. -/
def gcmOpen (key iv aad ct tag : List Byte) : Option (List Byte) :=
  if Config.aesTagHolds key iv aad ct tag then some (gcmStream key iv ct) else none

/-- The content key, unwrapped with the transport key of the part; none where a step fails. -/
def contentKey (s : State) (h : SlotHeader) : Option (List Byte) :=
  let w := h.wrap
  let epk := w.take 56
  let z := Config.x448 s.sec.keys epk
  let sec := Config.shake256 44 ([0x4C, 0x5A, 0x57, 0x52, 0x41, 0x50] ++ z ++ epk ++ Config.transportPub s.sec.keys)
  if z.all (· == 0) || leAt w 116 1 != 1 || !zeros w 117 11 then none
  else gcmOpen (sec.take 32) ((sec.drop 32).take 12) (h.kind :: leBytes 4 h.length.toNat) ((w.drop 56).take 32) ((w.drop 88).take 16)

/-- The ciphertext of a slot. -/
def cipherOf (h : SlotHeader) (x : FlashSlot) : List Byte := (x.blocks.flatten).take h.length.toNat

/-- Bytes of a slot that a load or a verification reads: all of it, but for a start's read of a program, which stops where the image's
LENGTH ends and leaves the archive alone (R535).
DEDUCED, log entry 65. -/
def spanOf (k : ImageKind) (h : SlotHeader) (x : FlashSlot) (key : List Byte) (archive : Bool) : Nat :=
  let all := h.length.toNat
  if archive || k != .program then all
  else
    let n := leAt (gcmStream key ((h.wrap.drop 104).take 12) ((cipherOf h x).take 12)) 8 4
    if within n 192 all then n else all

/-- The plain text of the span of a slot under its content key; none where the tag fails. The tag covers the whole content, so that it is
not asked of a span that ends before it.
DEDUCED, log entry 65. -/
def openSlot (h : SlotHeader) (x : FlashSlot) (key : List Byte) (span : Nat) : Option (List Byte) :=
  let iv := (h.wrap.drop 104).take 12
  if span < h.length.toNat then some (gcmStream key iv ((cipherOf h x).take span))
  else gcmOpen key iv (h.wrap.take 116) (cipherOf h x) h.tag

/-- A slot read for a load at a start: its plain text where header, key and tag hold (R537). -/
def slotPlain (s : State) (k : ImageKind) (b : Bool) : Option (List Byte) :=
  if !kindPort s k then none
  else match (slotAt s.flash k b).hdr with
    | none => none
    | some h =>
      let x := slotAt s.flash k b
      if headerOk k b h then (contentKey s h).bind (fun key => openSlot h x key (spanOf k h x key false)) else none

/-- The image in a plain text: for a program its LENGTH bytes, without the archive (R535). -/
def imageOf (k : ImageKind) (plain : List Byte) : List Byte :=
  match k with
  | .program => plain.take (leAt plain 8 4)
  | _ => plain

/-! ### Verification (R541) -/

/-- Firmware header fields (R534). -/
def firmwareFormat (bs : List Byte) : Bool :=
  leAt bs 0 4 == magicFirmware && leAt bs 4 2 == 1 && zeros bs 6 2 && leAt bs 12 4 == bs.length && zeros bs 16 48

/-- Program fields (R535), in a slot that holds `content` bytes. -/
def programFormat (content : Nat) (bs : List Byte) : Bool :=
  let n := leAt bs 8 4
  let instr := leAt bs 12 4
  let blocks := leAt bs 16 4
  let consts := 128 + 5 * instr + 5 * blocks
  let body := consts + 12 * leAt bs 20 4
  leAt bs 0 4 == magicProgram && leAt bs 4 2 == 1 && decide (n ≤ 9437184) && within instr 1 1048576 && within blocks 1 65536 &&
    zeros bs 28 36 && n == (body + 3) / 4 * 4 + 192 && zeros bs body ((4 - body % 4) % 4) && content == n + leAt bs 24 4 &&
    (leAt bs 24 4 != 0 || zeros bs 64 64) && (List.range (leAt bs 20 4)).all (fun i => zeros bs (consts + 12 * i + 9) 3)

/-- Steps 10 to 13 of R84 over a whole stream. -/
def charterFormat (env : LoadEnv) (bs : List Byte) : Bool :=
  match loadStream (some bs) with
  | .error _ => false
  | .ok st =>
    match walk st (st.length - 192) st.length 64 with
    | .error _ => false
    | .ok xs => (loadSections env st xs).toOption.isSome

/-- The trailer's key is the one that its kind demands (R534). -/
def keyOk (s : State) (k : ImageKind) (bs : List Byte) : Bool :=
  let last := bs.length - 192
  let ix := leAt bs (last + 4) 1
  let hash := Config.shake256 32 ((bs.drop (last + 8)).take 57)
  decide (192 ≤ bs.length) && leAt bs last 4 == magicTrailer &&
    (match k with
      | .firmware => ix == 0 && hash == vendorKey s
      | _ => ownerKey s ix == some hash)

/-- Signature context of a kind (R534). -/
def kindContext (k : ImageKind) : List Byte :=
  match k with
  | .firmware => leBytes 4 magicFirmware
  | .charter => leBytes 4 magicCharter
  | .program => leBytes 4 magicProgram

/-- The signature holds over every byte before SIG. -/
def signatureOk (k : ImageKind) (bs : List Byte) : Bool :=
  let last := bs.length - 192
  Config.ed448phVerify (kindContext k) ((bs.drop (last + 8)).take 57) (bs.take (bs.length - 114)) (bs.drop (bs.length - 114))

/-- GENERATION is at most the part's own; a firmware image names none (R534, R535). -/
def generationOk (s : State) (k : ImageKind) (bs : List Byte) : Bool :=
  match k with
  | .firmware => true
  | _ => decide (leAt bs 6 2 ≤ fusePartGen s)

/-- The checks of R541 in order: the image, or the code with the block concerned.
DEDUCED, log entry 65. -/
def verifySlot (s : State) (k : ImageKind) (b : Bool) (archive : Bool) : Except (Nat × Nat) (List Byte) :=
  if !kindPort s k then .error (10, 0)
  else match (slotAt s.flash k b).hdr with
  | none => .error (1, 0)
  | some h =>
    if !headerOk k b h then .error (1, 0)
    else match contentKey s h with
    | none => .error (2, 0)
    | some key =>
      let x := slotAt s.flash k b
      let span := spanOf k h x key archive
      match (List.range (blockCount span)).find? (fun i => (x.blocks[i]?).map crc32c != h.bcrc[i]?) with
      | some i => .error (3, i)
      | none =>
        match openSlot h x key span with
        | none => .error (4, 0)
        | some plain =>
          let bs := imageOf k plain
          let formatOk := match k with
            | .firmware => firmwareFormat bs
            | .charter => charterFormat (loadEnv s) bs
            | .program => programFormat h.length.toNat bs
          if !keyOk s k bs then .error (5, 0)
          else if !signatureOk k bs then .error (6, 0)
          else if !generationOk s k bs then .error (7, 0)
          else if !formatOk then .error (8, 0)
          else if archive && k == .program && leAt bs 24 4 != 0 && Config.shake256 64 (plain.drop bs.length) != (bs.drop 64).take 64 then
            .error (9, 0)
          else .ok bs

/-- SEC.FAIL captures the first failure after VALID was last cleared (R547); code FLASH sets XSP.STAT.ERR (R548). -/
def captureFail (s0 : State) (k : ImageKind) (code blk : Nat) : State :=
  let s := if code = 10 then s0.modXsp (fun x => { x with err := true }) else s0
  if s.sec.failValid then s
  else s.modSec (fun x => { x with failValid := true, failKind := k.code, failCode := code, failBlk := BitVec.ofNat 32 blk })

/-! ### The directory (R538, R539) -/

/-- Slot states of R538. -/
def slotEmpty : Byte := 0
def slotLoading : Byte := 1
def slotLoaded : Byte := 2
def slotVerified : Byte := 3
def slotFailed : Byte := 4

/-- Bytes 0 to 507 of a directory record. -/
def directoryBytes (d : DirRecord) : List Byte :=
  let entry := fun (e : DirEntry) => [e.active, e.stateA, e.stateB, 0] ++ leBytes 4 e.genA.toNat ++ leBytes 4 e.genB.toNat
  let hash := fun (h : List Byte) => (h ++ List.replicate 64 0).take 64
  leBytes 4 d.magic.toNat ++ leBytes 4 d.dseq.toNat ++ entry d.firmware ++ entry d.charter ++ entry d.program ++ List.replicate 20 0 ++
    hash d.firmware.hashA ++ hash d.firmware.hashB ++ hash d.charter.hashA ++ hash d.charter.hashB ++ hash d.program.hashA ++
    hash d.program.hashB ++ List.replicate 60 0

/-- A page is valid: correct MAGIC and CRC (R539). -/
def pageValid (d : Option DirRecord) : Bool :=
  match d with
  | some r => r.magic.toNat == magicDirectory && r.crc == crc32c (directoryBytes r)
  | none => false

/-- The page of the current record: true for page 1, none where neither is valid (R539). -/
def currentPage (f : Flash) : Option Bool :=
  match pageValid f.dir0, pageValid f.dir1, f.dir0, f.dir1 with
  | true, true, some a, some b => some (seqLater a.dseq b.dseq)
  | true, _, _, _ => some false
  | false, true, _, _ => some true
  | _, _, _, _ => none

/-- An entry of the no-directory case: slot A active and LOADED (R539). -/
def freshEntry : DirEntry where
  active := 0
  stateA := slotLoaded
  stateB := slotEmpty
  genA := 0
  genB := 0
  hashA := List.replicate 64 0
  hashB := List.replicate 64 0

/-- The record that stands where neither page is valid; its first change has DSEQ 1 (R539).
DESIGN CHOICE, log entry 74. -/
def freshRecord : DirRecord where
  magic := BitVec.ofNat 32 magicDirectory
  dseq := 0
  firmware := freshEntry
  charter := freshEntry
  program := freshEntry
  crc := 0

/-- The current record. -/
def currentRecord (f : Flash) : DirRecord :=
  match currentPage f with
  | some true => f.dir1.getD freshRecord
  | some false => f.dir0.getD freshRecord
  | none => freshRecord

/-- The entry of a kind. -/
def entryOf (d : DirRecord) (k : ImageKind) : DirEntry :=
  match k with
  | .firmware => d.firmware
  | .charter => d.charter
  | .program => d.program

def setEntryOf (d : DirRecord) (k : ImageKind) (e : DirEntry) : DirRecord :=
  match k with
  | .firmware => { d with firmware := e }
  | .charter => { d with charter := e }
  | .program => { d with program := e }

/-- The active slot of a kind. -/
def entryActive (e : DirEntry) : Bool := e.active != 0

def entryState (e : DirEntry) (b : Bool) : Byte := if b then e.stateB else e.stateA
def entryGen (e : DirEntry) (b : Bool) : W32 := if b then e.genB else e.genA
def entryHash (e : DirEntry) (b : Bool) : List Byte := if b then e.hashB else e.hashA

def withState (e : DirEntry) (b : Bool) (st : Byte) : DirEntry := if b then { e with stateB := st } else { e with stateA := st }
def withGen (e : DirEntry) (b : Bool) (g : W32) : DirEntry := if b then { e with genB := g } else { e with genA := g }
def withHash (e : DirEntry) (b : Bool) (h : List Byte) : DirEntry := if b then { e with hashB := h } else { e with hashA := h }

/-- A record put into the page that does not hold the current one (R539). -/
def putPage (f : Flash) (d : DirRecord) : Flash :=
  let sealed_ := { d with dseq := (currentRecord f).dseq + 1 }
  let r := { sealed_ with crc := crc32c (directoryBytes sealed_) }
  match currentPage f with
  | some false => { f with dir1 := some r }
  | _ => { f with dir0 := some r }

/-- The entry of a kind after a change; HASH is zero unless VERIFIED (R538, R540). -/
def changedEntry (e : DirEntry) (c : DirChange) : DirEntry :=
  let hash := if c.state = slotVerified then c.hash else List.replicate 64 0
  let e1 := withHash (withState e c.slotB c.state) c.slotB hash
  let e2 := if c.genUp then withGen e1 c.slotB (entryGen e1 c.slotB + 1) else e1
  if c.activate then { e2 with active := BitVec.ofNat 8 (bit c.slotB) } else e2

/-- A record after a change. -/
def changedRecord (d : DirRecord) (c : DirChange) : DirRecord := setEntryOf d c.kind (changedEntry (entryOf d c.kind) c)

/-- The record that the changes requested so far lead to: what the update commands go by.
DESIGN CHOICE, log entry 64. -/
def wantedRecord (s : State) : DirRecord := s.xsp.dirq.foldl changedRecord (currentRecord s.flash)

/-- The page that does not hold the current record, erased (R539). -/
def eraseOther (f : Flash) : Flash :=
  match currentPage f with
  | some false => { f with dir1 := none }
  | some true => { f with dir0 := none }
  | none => f

/-- The oldest change begins, once no slot is being written on its port: its page is erased (R539).
DESIGN CHOICE, log entry 64. -/
def beginChange (s : State) : State :=
  let held := match s.xsp.slotOp with | some o => !(headerArea o.kind false).port1 | none => false
  if s.xsp.dirq.isEmpty || held then s else { s with flash := eraseOther s.flash }

/-- A directory change requested by a command (R539): changes are made one at a time, in this order.
DESIGN CHOICE, log entry 64. -/
def changeDirectory (s : State) (c : DirChange) : State := beginChange (s.modXsp (fun x => { x with dirq := x.dirq ++ [c] }))

/-- The oldest change is done: its record stands in the page that was erased for it, and the next begins (R539).
DESIGN CHOICE, log entry 64. -/
def finishChange (s : State) : State :=
  match s.xsp.dirq with
  | [] => s
  | c :: rest => beginChange { s with flash := putPage s.flash (changedRecord (currentRecord s.flash) c), xsp := { s.xsp with dirq := rest } }

/-- A flash operation is in progress (R548). -/
def flashBusy (s : State) : Bool := !s.xsp.dirq.isEmpty || s.xsp.slotOp.isSome

/-- The active slot of a kind in the current record. -/
def activeSlot (s : State) (k : ImageKind) : Bool := entryActive (entryOf (currentRecord s.flash) k)

/-- A slot may be booted or loaded at a start: the directory has it VERIFIED; where this start found no directory, slot A (R539, R542).
DESIGN CHOICE, log entry 74. -/
def slotAllowed (s : State) (k : ImageKind) (b : Bool) : Bool :=
  if s.xsp.noDir then !b else entryState (entryOf (currentRecord s.flash) k) b == slotVerified

/-- The plain text of a slot that a start may load. -/
def startPlain (s : State) (k : ImageKind) (b : Bool) : Option (List Byte) := if slotAllowed s k b then slotPlain s k b else none

/-! ### The verified-hash latches (R490, R542) -/

/-- A latched hash in the pillar. -/
def latchedHash (s : State) (k : ImageKind) : List Byte := pilBytes s (sysHashes + 64 * (kindIx k).val) 64

/-- The two pages that a latch of 64 bytes at offset 0x60 + 64k crosses are committed one after the other (R490, R492). -/
def latchHash (s : State) (k : ImageKind) (h : List Byte) : State :=
  let a := sysHashes + 64 * (kindIx k).val
  let first := 64 - a % 64
  let s1 := (firmwareCommit s a (h.take first)).1
  (firmwareCommit s1 (a + first) (h.drop first)).1

/-- After a full verification at a start: the hash is committed and the generation latched (R542).
DEDUCED, log entry 73. -/
def latchImage (s : State) (k : ImageKind) (b : Bool) (h : List Byte) : State :=
  let g := entryGen (entryOf (currentRecord s.flash) k) b
  (latchHash s k h).modSec (fun x => { x with lgen := x.lgen.set (kindIx k) g, verified := x.verified.set (kindIx k) h })

/-- The latches of a kind match its slot, which lies on a port that was discovered and is VERIFIED (R531, R542). -/
def latchMatches (s : State) (k : ImageKind) : Bool :=
  let e := entryOf (currentRecord s.flash) k
  let b := entryActive e
  kindPort s k && entryState e b == slotVerified && entryHash e b == latchedHash s k && entryGen e b == s.sec.lgen[kindIx k]

end Sys2Proof.Machine
end

