-- ==== Sys2Proof/Machine/D2d.lean ====
section
/-! DEFINITION. The frames of the die-to-die link as they leave (R22, R391, R392). -/

namespace Sys2Proof.Machine

open Sys2Proof

def State.modFd (s : State) (f : FdState → FdState) : State := { s with fd := f s.fd }
def State.modFld (s : State) (f : FldState → FldState) : State := { s with fld := f s.fld }

/-! ### Die-to-die frames as bytes (R391, R392) -/

/-- A frame by its TYPE, FLAGS, sequence number and payload (R391). -/
def d2dFrame (type flags : Nat) (seq : W16) (payload : List Byte) : List Byte :=
  let body := leBytes 1 type ++ leBytes 1 flags ++ leBytes 2 seq.toNat ++ leBytes 2 payload.length ++ leBytes 2 0 ++ payload
  body ++ leBytes 4 (crc32c body).toNat

/-- The payload that COMMAND and HEARTBEAT share (R391). -/
def commandPayload (f : CommandFrame) : List Byte := leBytes 4 f.claim.toNat ++ leBytes 4 f.out.toNat ++ leBytes 4 f.stamp.toNat

/-- A payload as LEN allows it: a multiple of 4 bytes, at most 1,024 (R391). -/
def d2dPayload (bs : List Byte) : List Byte :=
  let p := bs.take 1024
  p ++ List.replicate ((4 - p.length % 4) % 4) 0

/-- The bytes of a frame of the logic die (R391); the layout of a CONFIG payload is free.
DESIGN CHOICE, log entry 97. -/
def logicBytes (seq : W16) (f : LogicFrame) : List Byte :=
  match f with
  | .command c => d2dFrame 1 (bit c.safeReq + 2 * bit c.release) seq (commandPayload c)
  | .heartbeat c => d2dFrame 2 (bit c.safeReq + 2 * bit c.release) seq (commandPayload c)
  | .reset => d2dFrame 3 0 seq []
  | .load p => d2dFrame 4 0 seq (d2dPayload p)
  | .config c => d2dFrame 5 0 seq (d2dPayload (Config.configPayload c))

/-- The STATUS payload (R392). -/
def statusBytes (p : StatusPayload) : List Byte :=
  leBytes 4 p.inp.toNat ++ leBytes 4 p.diag.toNat ++ leBytes 4 p.rb.toNat ++
    leBytes 1 (p.stage.toNat + 4 * bit p.silent + 8 * bit p.cwValid + 16 * bit p.latched + 32 * bit p.vfLow) ++ leBytes 1 p.temp.toNat ++
    leBytes 2 p.vfield.toNat ++ leBytes 4 p.partnerClaim.toNat ++ leBytes 2 p.ackSeq.toNat ++ leBytes 2 p.discarded.toNat

/-- A frame leaves the logic die (R22, R391). -/
def sendLogic (s : State) (f : LogicFrame) : State :=
  s.modFld (fun x => { x with
    sent := some (x.txSeq, f), sentBytes := logicBytes x.txSeq f, unacked := x.unacked ++ [(x.txSeq, f)], txSeq := x.txSeq + 1 })

/-- The LOAD frames of the field firmware (R391).
DESIGN CHOICE, log entry 97. -/
def loadFrames : Nat → List Byte → List LogicFrame
  | 0, _ => []
  | _ + 1, [] => []
  | n + 1, bs => .load (bs.take 1024) :: loadFrames n (bs.drop 1024)

/-! ### Silence episodes (R388) -/

/-- A silence episode that ends is recorded with its duration in ms, counted by the field die's samples (R388, R529).
DEDUCED, log entry 87. -/
def endSilence (s : State) : State :=
  match s.fd.silentSince with
  | some u => postDev (s.modFd (fun d => { d with silentSince := none })) 0x0602 9 (leBytes 4 ((s.fd.now - u) / 100))
  | none => s

end Sys2Proof.Machine
end

