-- ==== Sys2Proof/Machine/ResetEntry.lean ====
section
/-! DEFINITION. Reset sources and reset entry (R87-R90, R611): what every reset source shares. Rollback and release stand in Reset. -/

namespace Sys2Proof.Machine

open Sys2Proof

/-- A cause of cold class (R87). -/
def coldCause (cause : Nat) : Bool := decide (cause < 4)

/-- The die-to-die link sends a reset frame (R90). -/
def sendResetFrame (s : State) : State := (sendLogic s .reset).modFld (fun x => { x with waiting := none, hbDue := false, configDue := false })

/-- Reset entry (R90): the lanes, the commits and the trams stop, the reset frame is sent, and a retain copy or store that runs holds the
reset. Of sources that assert together the lower CAUSE is recorded; a later one only makes the pending start cold where its class is
cold (R88).
DEDUCED, log entry 77. -/
def resetEntry (s : State) (cause : Nat) (cold : Bool) : State :=
  if resetUnderWay s then
    let lower := s.sys.together && decide (cause < s.sys.cause)
    { s with sys := { s.sys with
      coldClass := s.sys.coldClass || cold, cause := if lower then cause else s.sys.cause, coldAsked := s.sys.coldAsked && !lower } }
  else
    let s1 := sendResetFrame (s.modLanes (fun x => { x with stopped := true }))
    { s1 with
      tram := { s1.tram with ch := s1.tram.ch.map (fun (x : TramSt) => { x with busy := false }) }
      seq := { s1.seq with running := false }
      sys := { s1.sys with
        phase := .entered, state := .starting, nested := s1.sys.state == .starting, held := s1.pil.store != .none
        cause := cause, coldClass := cold, coldAsked := false, rollbackFailed := false, startWdt := false, env := none, together := true } }

/-- A reset source of a cause, with the class R87 gives it. -/
def resetSource (s : State) (cause : Nat) : State := resetEntry s cause (coldCause cause)

/-- A write of 0x5AF1, or a void reload of a warm start, asks for a cold start for which no retention check is made, where it is the cause that
is recorded: alone, or of the sources that assert together the lowest (R88, R92, R100). -/
def coldReset (s : State) : State :=
  let s1 := resetEntry s 5 true
  if resetUnderWay s && !(s.sys.together && decide (5 ≤ s.sys.cause)) then s1 else { s1 with sys := { s1.sys with coldAsked := true } }

end Sys2Proof.Machine
end

