-- ==== Sys2Proof/Machine/Start.lean ====
section
/-! DEFINITION. Cold and warm starts (R94-R110, R612-R614): the steps as functions, their end states, and the commands that carry a start
on: COLD_START, WARM_START, the judging of the reference, PLL_LOCK, ramp steps and the start watchdog. Step 12 goes on in Pair. -/

namespace Sys2Proof.Machine

open Sys2Proof

/-- The START event (R107, R529). -/
def postStart (s : State) : State :=
  let y := s.sys
  postDev s 0x0001 0 (leBytes 1 y.cause ++ leBytes 1 (bit y.warm) ++ leBytes 1 y.why ++ leBytes 1 y.state.code ++ leBytes 1 y.code ++
    leBytes 1 y.step ++ leBytes 2 y.tstart.toNat)

/-! ### Recall and the recorder (R102, R475, R479, R498, R520) -/

/-- The stored LDO codes, divider step and plan age of MARGIN (R490). -/
def restoreMargin (s : State) : State :=
  let m := pilNat s sysMargin 8
  { s with
    laneA := { s.laneA with ldo := bitsOf m 4 0 }
    laneB := { s.laneB with ldo := bitsOf m 12 8 }
    age := { s.age with stepped := m.testBit 16, planAge := 3600 * bitsOf m 47 32 } }

/-- What a cold start takes from the pillar beside the log: the epoch (R329), the ledger (R475) and the margin settings (R479). -/
def restoreFromPillar (s : State) : State :=
  let stored := BitVec.ofNat 31 (pilNat s sysEpoch 4)
  let s1 := { s with pair := { s.pair with high := if s.pair.high.ult stored then stored else s.pair.high } }
  if s1.pil.recallOk then
    restoreMargin { s1 with age := { s1.age with ledger := BitVec.ofNat 48 (pilNat s sysLedger 6) } }
  else
    let age := { s1.age with
      ledger := 0, ledgerLost := true, mayLower := true, life := 0xFFFF, log := [], plans := 0, gainA := 0, stepsA := 0, gainB := 0, stepsB := 0 }
    postDev { s1 with age := age } 0x0901 20 []

/-- WDT_TRIP of the trip that led to this start (R315, R529).
DEDUCED, log entry 79. -/
def postTrip (s : State) : State :=
  if s.sys.tripPending then
    postDev (s.modSys (fun y => { y with tripPending := false })) 0x0405 7 (leBytes 1 s.wdt.trip ++ leBytes 1 0 ++ leBytes 4 s.wdt.land)
  else s

/-- Step 6 of a cold start: recall, the rebuild of the log, and the events that waited for it.
DEDUCED, log entry 79. -/
def recallStep (s : State) : State :=
  let s1 := timeLostParameter (rebuildLog (recallPillar s))
  let s2 := if s1.pil.recallOk then s1 else postDev s1 0x0803 16 []
  postTrip (restoreFromPillar s2)

/-! ### End states (R107, R613, R614) -/

/-- A start ends in a state other than running: no claim is held, no task runs and RET_OK is clear; the end is recorded (R93, R107). In halt
and boot recovery no charter is in effect (R440).
DEDUCED, log entry 70. -/
def endStart (s : State) (step code : Nat) (st : SysPhase) : State :=
  let dropped := st == .halt || st == .bootRecovery
  let s1 := { s with cht := { s.cht with charter := if dropped then none else s.cht.charter } }
  postStart (egressMailboxes (s1.modSys (fun y => { y with
    state := st, phase := .idle, step := step, code := code, startWdt := false, retOk := false, env := none })))

/-- An end before step 6 of a cold start: recall and the rebuild run first, so that the end is recorded (R614). -/
def endEarly (s : State) (step code : Nat) (st : SysPhase) : State :=
  endStart (if s.sys.warm then s else recallStep s) step code st

/-- RCREF with every island at its switch divider (R452, R614).
DEDUCED, log entry 72. -/
def onRcref (s : State) : State :=
  deliverHeld (s.modClk (fun k => { k with
    lock := !s.sup.pllLow, judging := false, ref := 2, newRef := 2, cur := switchDivs, target := switchDivs }))

/-- Whether step 6 is still to come. -/
def beforeRecall (s : State) (step : Nat) : Bool := !s.sys.warm && decide (step < 6)

/-- Code 0x21: clock hold on RCREF (R107, R450).
DEDUCED, log entry 72. -/
def endClockHold (s : State) (step : Nat) : State :=
  let s1 := onRcref s
  if beforeRecall s step then endEarly s1 step 0x21 .clockHold else endStart s1 step 0x21 .clockHold

/-! ### The reference at steps 2 and 7 (R94, R95, R98, R445-R455) -/

/-- Every island stands at its target (R455). -/
def rampsDone (s : State) : Bool := s.clk.cur == s.clk.target

/-- A reference is judged from now on; RCREF never is (R449). -/
def beginJudging (s : State) (step ref : Nat) : State :=
  (s.modClk (fun k => { k with judging := true, good := 0, windows := 0, newRef := ref })).modSys (fun y => { y with phase := .judging step })

/-- The mux takes the reference and the PLL locks again; the root is held until then (R452). -/
def beginLocking (s : State) (step : Nat) : State :=
  (s.modClk (fun k => { k with judging := false, lock := false })).modSys (fun y => { y with phase := .locking step })

/-- The ramps of a step begin (R452, R454). -/
def beginRamp (s : State) (step : Nat) (up : Bool) (target : Vector Nat 10) : State :=
  (s.modClk (fun k => { k with judging := false, target := target })).modSys (fun y => { y with phase := .ramping step up })

/-- The dividers of a charter with the stored divider step: each lane takes the larger (R454, R479). -/
def charterDivs (s : State) : Vector Nat 10 :=
  match s.cht.charter with
  | none => nominalDivs
  | some c => Vector.ofFn (fun i : Fin 10 =>
      let d := c.head.div.getD i.val 2
      if isLaneIsland i && s.age.stepped then max d 3 else d)

/-- Targets after the reference of a step is established: nominal at step 2 of a cold start, the charter's otherwise (R94, R98). -/
def stepDivs (s : State) (step : Nat) : Vector Nat 10 := if step = 2 ∧ ¬ s.sys.warm then nominalDivs else charterDivs s

/-! ### Steps 3 to 7 -/

/-- Step 4, with the release gate open once the test has passed (R298, R300). -/
def injectionStep (s : State) (env : StartEnv) : State :=
  let s1 := injected s env.injection
  { s1 with asy := { s1.asy with gate := env.injection == 0 } }

/-- A full verification failed: SEC.FAIL and VERIFY_FAILED (R541, R529). -/
def verifyFailed (s : State) (k : ImageKind) (b : Bool) (code blk : Nat) : State :=
  postDev (captureFail s k code blk) 0x0203 21 (leBytes 1 k.code ++ leBytes 1 (bit b))

/-- A slot verified for booting (R97): the image, where the directory lets the slot be booted. -/
def bootSlot (s : State) (b : Bool) : State × Option (List Byte) :=
  match verifySlot s .firmware b false with
  | .ok bs => (s, if slotAllowed s .firmware b then some bs else none)
  | .error (code, blk) => (verifyFailed s .firmware b code blk, none)

/-- Slot in use since the start (R548). -/
def useSlot (s : State) (k : ImageKind) (b : Bool) : State := s.modXsp (fun x => { x with inUse := x.inUse.set (kindIx k) b })

/-- A start uses the slots that the directory names as active, until a firmware fallback uses the other (R97, R540). -/
def useActive (s : State) : State := allKinds.foldl (fun acc k => useSlot acc k (activeSlot s k)) s

/-- Discovery of the flash ports (R531), with what their devices hold: what the part left in them, where nothing outside changed it
(R109).
DESIGN CHOICE, log entry 75. -/
def discover (s : State) (change : Option Flash) : State :=
  let f := change.getD s.flash
  useActive { s with
    flash := f
    xsp := { s.xsp with p0 := f.p0.getD 0, p1 := f.p1.getD 0, dirq := [], slotOp := none, noDir := (currentPage f).isNone } }

/-- The permission map that vendor firmware loads from the top of the integrator partition (R365): bits that PERM4 and IEN_HI reserve are
checked, a refused map leaves every port zero and the partition stopped. -/
def loadMap (s : State) : State :=
  let half := fun (i : Nat) =>
      let w := (memGet s.hf.imem (0x7FF8 + i / 2)).toNat
      if i % 2 = 0 then bitsOf w 15 0 else bitsOf w 31 16
    let reserved := fun (i : Nat) =>
      match i with
      | 3 => bitsOf (half 3) 15 4 != 0
      | 4 => bitsOf (half 4) 15 10 != 0
      | 6 => bitsOf (half 6) 9 0 != 0
      | _ => false
    let refuse := fun (reason h : Nat) =>
      postDev { s with hf := { s.hf with
        perm := Vector.replicate 4 0, perm4 := 0x80, ien := 0, intStop := true, imask := BitVec.allOnes 6 } } 0x0308 25
        (leBytes 1 reason ++ leBytes 1 h)
    if half 7 ≠ 0x504D then refuse 1 7
    else match (List.range 7).find? reserved with
      | some h => refuse 2 h
      | none => { s with hf := { s.hf with
          perm := Vector.ofFn (fun i : Fin 4 => BitVec.ofNat 16 (half i.val))
          perm4 := BitVec.ofNat 16 (half 4) ||| 0x80
          ien := BitVec.ofNat 32 (half 5 + 65536 * half 6) } }

/-- Vendor firmware and the integrator partition loaded, and vector 0 entered (R357, R358).
DESIGN CHOICE, log entry 75. -/
def enterFirmware (s : State) (env : StartEnv) (version : Nat) : State :=
  let imem := memWrites [] (env.imem.map (fun p => (p.1 % 32768, p.2)))
  loadMap { s with
    sec := { s.sec with fwVersion := BitVec.ofNat 32 version }
    hf := { s.hf with
      imem := imem
      intPart := imem.any (fun p => decide (0x6000 ≤ p.1))
      w := Vector.replicate 16 0, n := false, z := false, c := false, v := false, pc := 0, ie := false, p := false } }

/-- The fresh record of a start that found no directory: slot A of each kind, VERIFIED with its hash where it passes the full verification
(R539).
DESIGN CHOICE, log entry 74. -/
def verifiedRecord (s : State) : DirRecord :=
  allKinds.foldl (fun d k =>
    match verifySlot s k false false with
    | .ok bs => setEntryOf d k (withHash (withState freshEntry false slotVerified) false (Config.shake256 64 bs))
    | .error _ => d) freshRecord

/-- A booted slot taken into use.
DESIGN CHOICE, log entry 74. -/
def bootFrom (s : State) (env : StartEnv) (b : Bool) (bs : List Byte) : State :=
  let s1 := if s.xsp.noDir then { s with flash := putPage s.flash (verifiedRecord s) } else s
  enterFirmware (useSlot s1 .firmware b) env (leAt bs 8 4)

/-- Step 5 of a cold start (R97): the slot and its image hash, none where neither slot verified.
DEDUCED, log entry 73. -/
def firmwareStep (s : State) (env : StartEnv) : State × Option (Bool × List Byte) :=
  let s0 := discover s env.flash
  let a := entryActive (currentRecord s0.flash).firmware
  match bootSlot s0 a with
  | (s1, some bs) => (bootFrom s1 env a bs, some (a, Config.shake256 64 bs))
  | (s1, none) =>
    match bootSlot s1 (!a) with
    | (s2, some bs) =>
      let s3 := s2.modSys (fun y => { y with fwFallback := true })
      (postDev (bootFrom s3 env (!a) bs) 0x0004 0 (leBytes 1 (bit (!a))), some (!a, Config.shake256 64 bs))
    | (s2, none) => (s2, none)

/-- Bit timing of a rate (R400): nominal with `lo` 8, `hi` 257, `cut` 5 and `most` 193, data with 5, 49, 4 and 33. -/
def timingOf (div rate lo hi cut most : Nat) : BitTiming :=
  match rateQuanta div rate lo hi with
  | some (brp, n) =>
    let t2 := max (n / cut) (n - most)
    ⟨brp, n - 1 - t2, t2, t2⟩
  | none => BitTiming.init

/-- The nominal and data timing of a rate pair. -/
def pairTiming (div : Nat) (p : Nat × Nat) : BitTiming × BitTiming := (timingOf div p.1 8 257 5 193, timingOf div p.2 5 49 4 33)

/-- The four timing ports at the values of a timing (R420).
DESIGN CHOICE, log entry 126. -/
def showTiming (m : MbState) (t : BitTiming × BitTiming) : MbState :=
  { m with
    nbt0 := fields [(8, t.1.tseg1 - 1), (0, t.1.brp - 1)]
    newNbt1 := fields [(8, t.1.sjw - 1), (0, t.1.tseg2 - 1)]
    newDbt0 := fields [(8, t.2.tseg1 - 1), (0, t.2.brp - 1)]
    newDbt1 := fields [(8, t.2.sjw - 1), (0, t.2.tseg2 - 1)] }

/-- A controller as the charter sets it; it stays disabled until step 13 (R67, R398). The ports show the timing of NOMINAL and DATA (R420);
rate detection begins with RATES[0] (R414). Without a record every entry is zero.
DESIGN CHOICE, log entry 126. -/
def busSettings (c : Charter) (m : MbState) (n : Bus) : MbState :=
  match c.buses.find? (fun b => b.bus == n) with
  | none => { m with hold := false, nbt0 := 0, newNbt1 := 0, newDbt0 := 0, newDbt1 := 0 }
  | some b =>
    let div := c.head.div.getD 8 25
    let first := if b.flags.testBit 3 then b.rates.headD (b.nominal, b.data) else (b.nominal, b.data)
    let used := pairTiming div first
    { showTiming m (pairTiming div (b.nominal, b.data)) with
      listen := b.flags.testBit 2, ard := b.flags.testBit 3, hold := b.flags.testBit 5, nom := used.1, dat := used.2 }

/-- The layout of a monitor point (R71, R484). -/
def layoutOf (c : Charter) (m : Point) : MonLayout :=
  match c.monitors.find? (fun r => r.point == m) with
  | some r => ⟨r.source, r.arg, r.log2, r.width % 65536, r.width / 65536⟩
  | none => defaultLayout[m]

/-- Ports of a charter in effect: every field whose reset entry is the charter's (R85, R270, R310, R420, R470, R487, R530); HLT.XSRC and
HLT.XWIDTH take the layout of point 0, which HLT.SEL selects at every start.
DESIGN CHOICE, log entry 126. -/
def charterPorts (s : State) (c : Charter) : State :=
  let lay := Vector.ofFn (layoutOf c)
  egressMailboxes { s with
    clk := { s.clk with rampStep := c.head.rampStep, judgeWin := c.head.xoscWin }
    evt := { s.evt with defK := c.head.evtK, defW := c.head.evtW }
    hlt := { s.hlt with
      layout := lay
      xsrc := fields [(12, lay[0].source), (11, bit lay[0].log2), (0, lay[0].arg)]
      xwidthLo := BitVec.ofNat 16 lay[0].w
      xwidthHi := BitVec.ofNat 16 lay[0].o }
    tly := { s.tly with tokenEn := c.tally.foldl (fun (m : W16) r => if r.ntokens = 0 then m else m ||| (1#16 <<< r.task.val)) 0 }
    seq := { s.seq with tasks := Vector.ofFn (fun t : Fin 16 =>
      { s.seq.tasks[t] with replay := match c.tasks.find? (fun r => r.task == t) with | some r => BitVec.ofNat 32 r.replay | none => 0 }) }
    mb := Vector.ofFn (fun n : Fin 4 => busSettings c s.mb[n] n) }

/-- One LDO code limited to VMAX; an event records each code that is lowered (R479).
DEDUCED, log entry 12. -/
def limitLdo (s : State) (l : LaneId) (vmax : Nat) : State :=
  if (s.lane l).ldo ≤ vmax then s
  else postEvent (s.modLane l (fun x => { x with ldo := vmax })) (Config.unlistedCode 0).toNat 2 20 (leBytes 1 (laneBit l) ++ leBytes 1 vmax)

/-- A charter takes effect, all of it in one step (R81, R83).
DEDUCED, log entry 72. -/
def applyCharter (s : State) (c : Charter) (slotB : Bool) : State :=
  let s1 := charterPorts { s with cht := { s.cht with
    charter := some c, shown := some c, refused := false, slotB := slotB, code := 0, sect := 0, offs := 0, latchOk := true
    latchHash := c.head.hash
    latchGen := entryGen (currentRecord s.flash).charter slotB } } c
  -- a warm start keeps the LDO codes (R479)
  if s.sys.warm then s1 else limitLdo (limitLdo s1 .a c.head.ageVmax) .b c.head.ageVmax

/-- A refused charter: the no-charter state (R82, R84).
DESIGN CHOICE, log entry 116. -/
def refuseCharter (s : State) (e : ChtErr) (slotB : Bool) : State :=
  let s1 := { s with cht := { s.cht with
    charter := none, refused := true, slotB := slotB, code := e.code, sect := e.sect, offs := BitVec.ofNat 32 e.offs, latchOk := false } }
  endStart (postDev s1 0x0201 3 (leBytes 1 e.code ++ leBytes 1 0 ++ leBytes 2 e.sect ++ leBytes 4 e.offs)) 7 0x71 .noCharter

/-- The active program image, without its archive. -/
def programImage (s : State) : Option (List Byte) := (startPlain s .program (activeSlot s .program)).map (imageOf .program)

/-- Step 7: the charter load (R81, R84). -/
def charterStep (s : State) (env : StartEnv) : Except ChtErr Charter :=
  loadCharter (loadEnv s) (startPlain s .charter (activeSlot s .charter)) (programImage s) env.rereadDiffers

/-! ### Steps 8 to 11 -/

/-- A program signature failure withdraws the charter (R613).
DESIGN CHOICE, log entry 117. -/
def withdrawCharter (s : State) : State :=
  endStart { s with cht := { s.cht with charter := none, refused := true, code := 0, sect := 0, offs := 0 } } 8 0x81 .noCharter

/-- The block table of a program image (R150). -/
def blockTable (bs : List Byte) : List BlockEnt :=
  let instr := leAt bs 12 4
  (List.range (leAt bs 16 4)).map (fun i =>
    let w := leAt bs (128 + 5 * instr + 5 * i) 5
    ⟨bitsOf w 19 0, w.testBit 22, w.testBit 23⟩)

/-- A block table is sound: block 0 starts at 0 and the starts rise strictly (R150). -/
def blocksOk (bs : List BlockEnt) : Bool :=
  (match bs with | b :: _ => b.start == 0 | [] => false) &&
    (List.range (bs.length - 1)).all (fun i => decide ((bs[i]?.map (·.start)).getD 0 < (bs[i + 1]?.map (·.start)).getD 0))

/-- CONST records of a program image: physical word address and value (R535). -/
def constRecords (bs : List Byte) : List (Nat × W36) :=
  let at_ := 128 + 5 * leAt bs 12 4 + 5 * leAt bs 16 4
  (List.range (leAt bs 20 4)).map (fun i => (leAt bs (at_ + 12 * i) 4, BitVec.ofNat 36 (leAt bs (at_ + 12 * i + 4) 5)))

/-- A lane is named by a PROGRAM record (R75). -/
def laneUsed (s : State) (l : LaneId) : Bool := (progRec s l).isSome

/-- The code loaded into the CODE segment of a lane, with its block table (R101, R150).
DESIGN CHOICE, log entries 23, 114. -/
def loadLane (s : State) (l : LaneId) (bs : List Byte) : State :=
  if !laneUsed s l then s
  else match (descTable s l).find? (fun d => d.kind == 5) with
    | none => s
    | some d =>
      let code := unpackWords (bs.drop 128) (leAt bs 12 4)
      s.modLane l (fun x => { x with
        mem := memWriteSeq x.mem d.base code
        blocks := blockTable bs
        bad := x.bad.filter (fun a => !(decide (d.base ≤ a) && decide (a < d.base + code.length)))
        single := x.single.filter (fun a => !(decide (d.base ≤ a) && decide (a < d.base + code.length))) })

/-- The field die's firmware in the firmware slot in use (R391, R534). -/
def fieldFirmware (s : State) : List Byte :=
  match slotPlain s .firmware s.xsp.inUse[kindIx .firmware] with
  | some bs => Config.fieldFirmware bs
  | none => []

/-- The field die loaded with its firmware by LOAD frames and with the charter's settings by a CONFIG frame; it is silent until its first
release, and a silence episode in progress ends (R388, R391).
DEDUCED, log entry 87. -/
def loadField (s0 : State) (recs : List FieldRec) (silenceMs : Nat) (frames : List FrameRec) : State :=
  let firmware := fieldFirmware s0
  let sends := loadFrames firmware.length firmware ++ [LogicFrame.config (.records recs (BitVec.ofNat 8 silenceMs) frames)]
  let s := sends.foldl sendLogic (endSilence s0)
  { s with
    fd := { s.fd with
      loaded := true, configured := true, heldOff := false, silent := true, released := false, silenceMs := BitVec.ofNat 8 silenceMs
      claim := 0, safeReq := false, rxSeq := some (s.fld.txSeq - 1), txSeq := 0, pulsePer := 100, openMa := 2, stage := .safe, frames := frames
      ch := Vector.ofFn (fun i : Fin 32 =>
        let r := recs.getD i.val FieldRec.init
        let on := r.safeOn && decide (2 ≤ r.mode.toNat) && !s.fd.loopback
        let at_ := if on then some s.fd.now else none
        { ChanSt.init with cfg := r, driver := on, changedAt := at_, onAt := at_ }) }
    fld := { s.fld with fwOk := true } }

/-- The images that the reload streams, firmware and program, have the hashes verified, or latched before a warm start (R100). -/
def reloadMatches (s : State) : Bool :=
  [ImageKind.firmware, ImageKind.program].all (fun k =>
    (slotPlain s k s.xsp.inUse[kindIx k]).map (fun bs => Config.shake256 64 (imageOf k bs)) == some s.sec.verified[kindIx k])

/-- Step 9: the reload, none where it is void (R100, R150). -/
def reload (s : State) (env : StartEnv) : Option State :=
  match s.cht.charter, programImage s with
  | some c, some bs =>
    if env.reloadDiffers || !reloadMatches s || !blocksOk (blockTable bs) then none
    else some (loadField (loadLane (loadLane s .a bs) .b bs) c.field c.head.silenceMs (c.frames.filter (fun f => f.xbar == 1)))
  | _, _ => none

/-- An input stage's comparison fails its references: the one at the ON threshold must read 1, the one at the OFF threshold 0 (R376,
R394). -/
def refsFail (f : FieldRec) (r : Nat × Nat) : Bool × Bool :=
  (decide (r.1 < 2000 + 250 * f.on.toNat), decide (2000 + 250 * f.off.toNat < r.2))

/-- An output fails the self-test's pulse, which is opposite to its held state and judged as a test pulse (R384, R394). -/
def heldPulseFails (f : FieldRec) (mv : Nat) : Bool := if f.safeOn then decide (4000 < mv) else decide (mv < 12000)

/-- A channel as the self-test leaves it (R394): a failing input is flagged WIRE_BREAK where it misses its ON reference and SENSE_HIGH
where it exceeds its OFF reference, a failing output PULSE_FAIL.
DESIGN CHOICE, log entry 109. -/
def testedChan (x : ChanSt) (refs : Nat × Nat) (mv : Nat) : ChanSt :=
  if x.cfg.mode = 0 then x
  else if x.cfg.mode = 1 then
    let bad := refsFail x.cfg refs
    { x with wireBreak := x.wireBreak || bad.1, senseHigh := x.senseHigh || bad.2 }
  else { x with pulseFail := x.pulseFail || heldPulseFails x.cfg mv }

/-- The channel fails the self-test of step 10 (R394).
DESIGN CHOICE, log entry 109. -/
def chanFailed (x : ChanSt) (refs : Nat × Nat) (mv : Nat) : Bool :=
  if x.cfg.mode = 0 then false
  else if x.cfg.mode = 1 then (refsFail x.cfg refs).1 || (refsFail x.cfg refs).2
  else heldPulseFails x.cfg mv

/-- The field die's self-test (R394): the state, and whether it passed.
DESIGN CHOICE, log entry 109. -/
def selfTest (s : State) (env : StartEnv) : State × Bool :=
  let refs := fun (i : Chan) => env.fieldRefs.getD i.val (0, 0)
  let mv := fun (i : Chan) => env.fieldPulses.getD i.val 0
  let ok := !env.fieldCtlBad && (List.finRange 32).all (fun i => !chanFailed s.fd.ch[i] (refs i) (mv i))
  if ok then ({ s with fld := { s.fld with selftest := true } }, true)
  else ({ s with fd := { s.fd with ch := Vector.ofFn (fun i : Fin 32 => testedChan s.fd.ch[i] (refs i) (mv i)) } }, false)

/-- RET words of a lane with their values restored from the parameter area (R69, R102). -/
def restoredRet (s : State) (l : LaneId) : List (Nat × W36) :=
  (pillarRecs s).flatMap (fun r =>
    match (descTable s l).find? (fun d => d.segId == r.segId) with
    | some d => (List.range r.words).map (fun i => (d.base + i, BitVec.ofNat 36 (pilNat s (parameterArea + r.offset + 8 * i) 8)))
    | none => [])

/-- RET words of a lane as reset rollback left them. -/
def keptRet (s : State) (l : LaneId) : List (Nat × W36) :=
  ((descTable s l).filter (fun d => d.kind == 3)).flatMap (fun d =>
    (List.range d.limit).map (fun i => (d.base + i, memGet (s.lane l).mem (d.base + i))))

/-- CODE words of a lane as the reload left them.
DESIGN CHOICE, log entry 23. -/
def codeWords (s : State) (l : LaneId) : List (Nat × W36) :=
  ((descTable s l).filter (fun d => d.kind == 5)).flatMap (fun d =>
    (List.range d.limit).map (fun i => (d.base + i, memGet (s.lane l).mem (d.base + i))))

/-- Initial values that fall into CONST segments of a lane (R101). -/
def constWords (s : State) (l : LaneId) (bs : List Byte) : List (Nat × W36) :=
  (constRecords bs).filter (fun p => (descTable s l).any (fun d => d.kind == 4 && decide (d.base ≤ p.1) && decide (p.1 < d.base + d.limit)))

/-- Step 11 for one lane: CODE, CONST and RET words, every other word zero (R101). -/
def setupLane (s : State) (l : LaneId) (bs : List Byte) (ret : List (Nat × W36)) : State :=
  let mem := memWrites [] (codeWords s l ++ ret ++ if laneUsed s l then constWords s l bs else [])
  s.modLane l (fun x => { x with mem := mem, bad := [], single := [] })

/-- Why retained data are lost at a cold start, 0 where they are restored (R102, R501, R529).
DEDUCED, log entry 70. -/
def retLostReason (s : State) : Nat :=
  let info := pilNat s sysStoreInfo 8
  if !s.pil.recallOk then 1
  else if pilBytes s sysLayout 32 != layoutHash (pillarRecs s) then 2
  else if info.testBit 0 then 3
  else if info.testBit 1 then 4
  else 0

/-- Step 11 (R101, R102).
DEDUCED, log entry 70. -/
def memoryStep (s0 : State) : State :=
  let bs := (programImage s0).getD []
  if s0.sys.warm then setupLane (setupLane s0 .a bs (keptRet s0 .a)) .b bs (keptRet s0 .b)
  else
    let why := retLostReason s0
    let s := readPages s0 (fun p => p == 0 || p == 1 || (why == 0 && holdsRecord s0 p))
    let ret := fun (l : LaneId) => if why = 0 then restoredRet s l else []
    let s1 := setupLane (setupLane s .a bs (ret .a)) .b bs (ret .b)
    if why = 0 then s1 else postDev (s1.modSys (fun y => { y with retLost := true })) 0x0005 0 (leBytes 1 why)

/-! ### Steps 12 and 13 -/

/-- The last held claim (R336): the epoch stored by the part's last take, with its UNIT; 0 if none (R329, R330).
DEDUCED, log entry 80. -/
def storedClaim (s : State) : W32 :=
  let e := pilNat s sysEpoch 4
  if e = 0 then 0 else BitVec.ofNat 32 (2 * e + claimUnit s)

/-- Step 12 begins: a single part takes its claim (R320), a pair negotiates (R336); a part that is FAULTED stays so until a reset and takes
none (R554).
DEDUCED, log entries 71, 80. -/
def beginNegotiation (s : State) : State :=
  let s1 := readPage (s.modSys (fun y => { y with phase := .negotiating })) 0
  let s2 := { s1 with pair := { s1.pair with lastClaim := storedClaim s1 } }
  if linkUp s2 || s2.pair.role == .faulted then s2 else { s2 with pair := { s2.pair with take := some .alone } }

/-- A task starts (R113): its first cycle, number 0, is due at the first tick at or after this instant. FW belongs to its first start after a
warm start of the part (R104).
DESIGN CHOICE, log entry 129. -/
def startTask (s : State) (t : Task) : State :=
  s.modTask t (fun k => { k with
    phase := .ready s.seq.ut, number := 0, firstCycle := true, firstWarm := k.warmDue, warmDue := false, stopReq := false, consec := 0 })

/-- AUTOSTART tasks of the charter (R60, R105). -/
def autostarts (s : State) : List Task :=
  match s.cht.charter with | some c => (c.tasks.filter (fun (r : TaskRec) => r.autostart)).map (·.task) | none => []

/-- Enabled controllers begin bus integration (R398), a change of STATE like any other (R418), in an island that is not gated (R399). -/
def enableBuses (s : State) : State :=
  let s1 := (List.finRange 4).foldl (fun acc n => if busEnabled s n then setBusPhase acc n .integrating else acc) s
  if canEnabled s then s1.modClk (fun k => { k with gate := k.gate.set 8 .open_ }) else s1

/-- Step 13 (R93, R105, R106, R108, R312): the start is complete; the unit time runs, the watchdog is armed, and AUTOSTART tasks start where
the part runs tasks.
DESIGN CHOICE, log entry 4. -/
def completeStart (s : State) (tasks : Bool) : State :=
  let time := match s.sys.env with | some e => e.tstart | none => 0
  let s1 := (forceBypass s).modSys (fun y => { y with
    state := .running, phase := .idle, step := 13, code := 0, retOk := true, startWdt := false, tstart := time, env := none })
  let s2 := enableBuses { s1 with
    wdt := { s1.wdt with armed := true, count := 0, served := 0, prewarn := false }
    -- sources other than the selected one and RCREF are disabled at task start (R445)
    clk := { s1.clk with sources := 4 ||| (1#3 <<< s1.clk.ref) }
    age := { s1.age with lostDue := s1.age.ledgerLost }
    seq := { s1.seq with
      running := true
      tasks := Vector.ofFn (fun t : Fin 16 => { s1.seq.tasks[t] with warmDue := s1.sys.warm }) } }
  let s3 := if tasks then (autostarts s2).foldl startTask { s2 with fld := { s2.fld with firstRelease := true } } else s2
  takeHeldBoxes (postStart s3)

/-! ### The steps in order -/

/-- Steps 8 to 12. The program is verified in step 8 of a cold start, and in step 5 of a warm start that does not skip (R99). -/
def fromStep8 (s : State) (env : StartEnv) : State :=
  let b := activeSlot s .program
  let verify := !s.sys.warm
  match (if verify then some (verifySlot s .program b false) else none) with
  | some (.error (code, blk)) => withdrawCharter (verifyFailed s .program b code blk)
  | r =>
    let s1 := match r with
      | some (.ok bs) => latchImage s .program b (Config.shake256 64 bs)
      | _ => s
    match reload s1 env with
    | none =>
      if s1.sys.warm then coldReset s1 else endStart s1 9 0x91 .halt
    | some s2 =>
      if s2.sys.warm then beginNegotiation (memoryStep s2)
      else match selfTest s2 env with
        | (s3, true) => beginNegotiation (memoryStep s3)
        | (s3, false) => endStart s3 10 0xA1 .halt

/-- After the ramps of step 7, or of step 2 of a warm start. -/
def afterRamps7 (s : State) (env : StartEnv) : State := fromStep8 s env

/-- The charter's reference and dividers at step 7 of a cold start (R95).
DEDUCED, log entry 72. -/
def establishStep7 (s : State) (env : StartEnv) : State :=
  match s.cht.charter with
  | none => s
  | some c =>
    if c.head.ref = s.clk.ref then
      let s1 := beginRamp s 7 false (charterDivs s)
      if rampsDone s1 then afterRamps7 s1 env else s1
    else if c.head.ref = 2 then beginRamp (s.modClk (fun k => { k with newRef := 2 })) 7 true switchDivs
    else beginJudging s 7 c.head.ref

/-- Steps 6 and 7 of a cold start.
DEDUCED, log entry 73. -/
def fromStep6 (s : State) (env : StartEnv) (fwB : Bool) (fwHash : List Byte) : State :=
  let s1 := latchImage (recallStep s) .firmware fwB fwHash
  let b := activeSlot s1 .charter
  match charterStep s1 env with
  | .error e => refuseCharter s1 e b
  | .ok c => establishStep7 (latchImage (applyCharter s1 c b) .charter b c.head.hash) env

/-- Steps 3 to 7 of a cold start (R94). RET_OK is cleared as BIST begins (R93). -/
def coldFrom3 (s : State) (env : StartEnv) : State :=
  let s0 := s.modSys (fun y => { y with retOk := false })
  match env.bist with
  | some .pillar =>
    let s1 := s0.modSys (fun y => { y with state := .halt, phase := .idle, step := 3, code := 0x31, startWdt := false, env := none, noLog := true })
    { s1 with evt := { s1.evt with queue := [] } }
  | some .other => endEarly s0 3 0x31 .halt
  | none =>
    let s1 := injectionStep s0 env
    if env.injection ≠ 0 then endEarly s1 4 0x41 .halt
    else match firmwareStep s1 env with
      | (s2, none) => endEarly s2 5 0x52 .bootRecovery
      | (s2, some (b, h)) => fromStep6 s2 env b h

/-- Step 5 of a warm start (R98, R99): a full verification of firmware and program where a latch does not match.
DESIGN CHOICE, log entry 117. -/
def warmFirmware (s : State) (env : StartEnv) : State × Bool :=
  let s0 := readPages (discover s env.flash) (fun p => sysHashes / 64 ≤ p && p < (sysHashes + 192 + 63) / 64)
  let skip := allKinds.all (latchMatches s0)
  if skip then
    let kept := s0.modSec (fun x => { x with verified := Vector.ofFn (fun i : Fin 3 => latchedHash s0 (allKinds.toArray.getD i.val .firmware)) })
    (enterFirmware kept env s0.sec.fwVersion.toNat, true)
  else match firmwareStep s0 env with
    | (s1, none) => (endStart s1 5 0x52 .bootRecovery, false)
    | (s1, some (fb, h)) =>
      let s2 := latchImage s1 .firmware fb h
      let pb := activeSlot s2 .program
      match verifySlot s2 .program pb false with
      | .ok bs => (latchImage s2 .program pb (Config.shake256 64 bs), true)
      | .error (code, blk) => (withdrawCharter (verifyFailed s2 .program pb code blk), false)

/-- The charter latch is intact (R83). -/
def latchIntact (s : State) (env : StartEnv) : Bool :=
  s.cht.latchOk && env.latchParity && s.cht.latchGen == entryGen (currentRecord s.flash).charter (activeSlot s .charter) &&
    (match s.cht.shown with | some c => s.cht.latchHash == c.head.hash | none => false)

/-- The firmware that runs is at least the MIN_FW of the charter in effect (R86).
DEDUCED, log entry 104. -/
def firmwareAllowed (s : State) : Bool := match s.cht.charter with | some c => c.head.minFw.ule s.sec.fwVersion | none => true

/-- Steps 4 to 12 of a warm start (R98). A full charter load at step 7 sets the dividers (R81, R454); the reference stays that of step 2
(R448).
DESIGN CHOICE, log entry 118. -/
def warmFrom4 (s : State) (env : StartEnv) : State :=
  let s1 := injectionStep s env
  if env.injection ≠ 0 then endStart s1 4 0x41 .halt
  else match warmFirmware s1 env with
    | (s2, false) => s2
    | (s2, true) =>
      if latchIntact s2 env && firmwareAllowed s2 then fromStep8 s2 env
      else
        let b := activeSlot s2 .charter
        match charterStep s2 env with
        | .error e => refuseCharter s2 e b
        | .ok c =>
          let s3 := latchImage (applyCharter s2 c b) .charter b c.head.hash
          let s4 := beginRamp s3 7 false (charterDivs s3)
          if rampsDone s4 then afterRamps7 s4 env else s4

/-- The ramps of step 2 have ended: the start goes on, or stops in the production test state (R573).
DEDUCED, log entry 49. -/
def afterRamps2 (s : State) (env : StartEnv) : State :=
  if s.tap.prod then s.modSys (fun y => { y with phase := .idle, startWdt := false })
  else if s.sys.warm then warmFrom4 s env
  else coldFrom3 s env

/-- A start whose ramps have ended goes on. -/
def afterRamps (s : State) (step : Nat) (up : Bool) : State :=
  match s.sys.env with
  | none => s
  | some env =>
    if up then beginLocking s step
    else if step = 2 then afterRamps2 s env
    else afterRamps7 s env

/-- Ramps that have ended carry the start on. -/
def continueRamp (s : State) : State :=
  match s.sys.phase with
  | .ramping step up => if rampsDone s then afterRamps s step up else s
  | _ => s

/-- The reference of step 2 is in use: the islands ramp to their targets. -/
def rampDown (s : State) (step : Nat) : State := continueRamp (beginRamp s step false (stepDivs s step))

/-- Step 2 (R94, R98): all three sources are enabled (R445), RCREF is locked, and the start's reference judged.
DEDUCED, log entry 72. -/
def beginStep2 (s : State) (ref : Nat) : State :=
  let s1 := (onRcref s).modClk (fun k => { k with sources := 7 })
  if ref = 2 then rampDown s1 2 else beginJudging s1 2 ref

/-- Production test is entered: TEST_EN at step 1 of a cold start of CAUSE 0 or 2 with blank integrity words (R573).
DEDUCED, log entry 49. -/
def entersProduction (s : State) (env : StartEnv) : Bool :=
  env.testEn && (s.sys.cause == 0 || s.sys.cause == 2) && s.fuses.word[42] == 0 && s.fuses.word[43] == 0

/-- WDT_OPEN and START_REF of the fuses. -/
def fuseWdtOpen (s : State) : Nat := bitsOf (fuse40 s) 10 8
def fuseStartRef (s : State) : Nat := bitsOf (fuse40 s) 13 12

/-- The fuse checks of step 1 in order (R612): the code of the first that fails, 0 where all pass. -/
def fuseCheck (s : State) (env : StartEnv) : Nat :=
  if env.fuseDamaged || !fusesAgree s.fuses then 0x12
  else if fuseWdtOpen s = 7 then 0x11
  else if fuseStartRef s = 3 then 0x13
  else 0

/-- Step 1 of either start, and the judging that begins step 2. -/
def beginStart (s : State) (env : StartEnv) : State :=
  let s0 := (useActive s).modSec (fun x => { x with fuseOk := !env.fuseDamaged && fusesAgree s.fuses })
  let s1 := backupCheck (s0.modSys (fun y => { y with env := some env }))
  let s2 := if s1.sys.warm then postTrip (rebuildLog s1) else s1
  if entersProduction s2 env && !s2.sys.warm then
    beginStep2 { s2 with tap := { s2.tap with prod := true } } (if fuseStartRef s2 = 3 then 2 else fuseStartRef s2)
  else
    let code := fuseCheck s2 env
    if code ≠ 0 then endEarly (onRcref s2) 1 code .halt
    else beginStep2 s2 (if s2.sys.warm then (match s2.cht.charter with | some c => c.head.ref | none => 2) else fuseStartRef s2)

/-- COLD_START: after a reset release that chose a cold start (R92, R94).
DESIGN CHOICE, log entries 4, 75. -/
def execColdStart (env : StartEnv) (s : State) : Out :=
  .next (if s.sys.phase = .released false then beginStart s env else s)

/-- WARM_START: after a reset release that chose a warm start (R92, R98).
DESIGN CHOICE, log entry 75. -/
def execWarmStart (env : StartEnv) (s : State) : Out :=
  .next (if s.sys.phase = .released true then beginStart s env else s)

/-! ### Commands of the reference (R449, R450, R452, R454) -/

/-- A window of the judging ends (R449). -/
def judgeWindow (s : State) (step count : Nat) : State :=
  let good := goodWindow (judgeWidth s) count
  let n := if good then s.clk.good + 1 else 0
  let s1 := s.modClk (fun k => { k with xcount := min 0xFFF count, windows := sat16 k.windows 1, good := n })
  if n < 4 then s1
  else if step = 2 then beginLocking s1 2
  else continueRamp (beginRamp s1 step true switchDivs)

/-- JUDGING_WINDOW: 1,024 RCREF cycles have passed; the reference passes at the end of the fourth good window in a row (R449). -/
def execJudgingWindow (count : Nat) (s : State) : Out :=
  .next (match s.sys.phase with | .judging step => judgeWindow s step count | _ => s)

/-- JUDGING_TIMEOUT: the reference has not passed 20 ms after its judging began (R450). -/
def execJudgingTimeout (s : State) : Out :=
  .next (match s.sys.phase with | .judging step => endClockHold s step | _ => s)

/-- PLL_LOCK: the PLL has locked on the new reference; the root is released, the seams deliver what they held (R463), and every island ramps
to its target (R447, R452). -/
def execPllLock (s : State) : Out :=
  let s1 := deliverHeld { s.modClk (fun k => { k with lock := true }) with sup := { s.sup with pllLow := false } }
  .next (match s.sys.phase with
    | .locking step => rampDown (s1.modClk (fun k => { k with ref := k.newRef })) step
    | _ => s1)

/-- RAMP_STEP: an island's current divider moves one integer toward its target (R454); in paired mode the two lane ramps take their steps on
the same root edges (R456). A held root gives no step (R447). The last ramp of a start's step carries the start on. -/
def execRampStep (i : Island) (s : State) : Out := .next (if s.clk.lock then continueRamp (rampStep s i) else s)

/-- Step at which a start that is cut off stands. -/
def standingStep (p : StartPhase) : Nat :=
  match p with
  | .judging k => k
  | .locking k => k
  | .ramping k _ => k
  | .negotiating => 12
  | _ => 1

/-- START_WATCHDOG_EXPIRY: the allowance of R108 has passed before task start. -/
def execStartWatchdogExpiry (s : State) : Out :=
  .next (
    if s.sys.startWdt then
      let k := standingStep s.sys.phase
      let s1 := if s.clk.lock then s else onRcref s
      let s2 := { s1 with pair := { s1.pair with take := none } }
      if beforeRecall s2 k then endEarly s2 k 0xE1 .halt else endStart s2 k 0xE1 .halt
    else s)

end Sys2Proof.Machine
end

