-- ==== Sys2Proof/Machine/Can.lean ====
section
/-! DEFINITION. The message bus controllers (R396-R420): arbitration and outcomes of mailboxes, reception, errors and error states, rate
detection, and the MBn ports that act. -/

namespace Sys2Proof.Machine

open Sys2Proof

/-! ### Mailboxes (R404-R408) -/

/-- Outcomes of R408. -/
def mbSent : Nat := 3
def mbExpired : Nat := 4
def mbAborted : Nat := 5
def mbRetryLimit : Nat := 6

/-- A word of a mailbox. -/
def mbxWord (s : State) (n : Bus) (m w : Nat) : Nat := (memGet s.msg (mbxBase n m + w)).toNat

/-- The frame that a mailbox holds (R404): BRS counts in FD frames and RTR in classical ones. -/
def mbxFrame (s : State) (n : Bus) (m : Nat) : CanFrame :=
  let w1 := mbxWord s n m 1
  let w2 := mbxWord s n m 2
  let ide := w1.testBit 15
  let fdf := w1.testBit 14
  let id := mbxWord s n m 0 + 65536 * bitsOf w1 12 0
  let dlc := BitVec.ofNat 4 w2
  { id := BitVec.ofNat 29 (if ide then id else id % 2 ^ 11)
    ide := ide
    fdf := fdf
    brs := fdf && w1.testBit 13
    esi := (s.mb[n]).phase == .passive && fdf
    rtr := w2.testBit 4 && !fdf
    dlc := dlc
    data := msgBytes s.msg (2 * (mbxBase n m + 8)) (dlcBytes fdf dlc) }

/-- A mailbox ends in an outcome of R407: its TXDONE bit is set, which is notified (R418, R468), and its lifetime stops. -/
def endMailbox (s : State) (n : Bus) (m : Fin 64) (st : Nat) : State :=
  let s1 := notifyBus ((mbxSetState s n m.val st).modMb n (fun x => { x with
    txDone := x.txDone ||| (1#64 <<< m.val), lifeOn := x.lifeOn &&& ~~~(1#64 <<< m.val) })) n
  { s1 with ing := { s1.ing with loaded := vecModify s1.ing.loaded n (fun l => l.filter (fun p => p.1 != m)) } }

/-! ### States of a controller (R415-R418) -/

/-- The controller takes part in the traffic. -/
def onBus (m : MbState) : Bool := m.phase == .active || m.phase == .passive

/-- The controller only listens (R413, R414). -/
def listens (m : MbState) : Bool := m.listen || m.ard

/-- Error active or error passive as the counters say (ISO 11898-1).
PRESUMED, log entry 66. -/
def settleErrors (s : State) (n : Bus) : State :=
  let m := s.mb[n]
  if onBus m then setBusPhase s n (if m.tec < 128 ∧ m.rec_ < 128 then .active else .passive) else s

/-- A timing set accepted during a frame replaces the values in use (R401). -/
def useTiming (m : MbState) : MbState :=
  match m.newTiming with
  | some t => { m with newTiming := none, nom := t.1, dat := t.2 }
  | none => m

/-- A timing set accepted during a frame takes effect after it: the controller leaves the bus and integrates again (R401).
DESIGN CHOICE, log entry 68. -/
def afterFrame (s : State) (n : Bus) : State :=
  if (s.mb[n]).newTiming.isSome then setBusPhase (s.modMb n useTiming) n .integrating else s

/-- The mailbox being sent leaves the bus without a success that counts, or a failure: it goes back to PENDING, or ends as an expiry or an
abort while it was SENDING says (R397, R407, R408). -/
def releaseSending (s : State) (n : Bus) : State :=
  match (s.mb[n]).sending with
  | none => s
  | some (i, _, _) =>
    let s1 := s.modMb n (fun x => { x with sending := none, ending := .none })
    match (s.mb[n]).ending with
    | .expired => endMailbox s1 n i mbExpired
    | .aborted => endMailbox s1 n i mbAborted
    | .none => mbxSetState s1 n i.val mbPending

/-! ### Transmission (R406, R407) -/

/-- The choice among the PENDING mailboxes at an arbitration start (R406). -/
def chooseMailbox (s : State) (n : Bus) : State :=
  let pend := (List.finRange 64).filter (fun i => mbxState s n i.val == mbPending)
  let frames := pend.map (fun i => (i, mbxFrame s n i.val))
  match firstLeast (fun (p : Fin 64 × CanFrame) => arbitrationKey p.2.id p.2.ide p.2.rtr) frames with
  | some (i, f) =>
    (mbxSetState s n i.val mbSending).modMb n (fun x => { x with
      sending := some (i, f, BitVec.ofNat 32 s.seq.ut.toNat), ending := .none })
  | none => s

/-- ARBITRATION_START: the PENDING frame that would win arbitration is read and sent; at equality the lower mailbox goes (R406). A mailbox
that the last arbitration left SENDING has lost it, and competes again (R408). The bus is idle, so a timing set that waits for the end of a
frame is due before (R401). -/
def execArbitrationStart (n : Bus) (s : State) : Out :=
  .next (
    if onBus s.mb[n] && !listens s.mb[n] then
      let s1 := releaseSending s n
      if (s.mb[n]).newTiming.isSome then afterFrame s1 n else chooseMailbox s1 n
    else s)

/-- Compensation is in use for a data phase above 1 Mbit/s (R402). -/
def tdcOn (s : State) (n : Bus) : Bool :=
  let m := s.mb[n]
  let div := match s.cht.charter with | some c => c.head.div.getD 8 25 | none => 25
  !m.tdcOff && m.dat.brp != 0 && decide (1000 * m.dat.brp * (1 + m.dat.tseg1 + m.dat.tseg2) * div < 2000000)

/-- The offset of the secondary sample point, in protocol clocks (R402). -/
def tdcOffsetOf (m : MbState) : Nat := if m.tdcOffset = 0 then (1 + m.dat.tseg1) * m.dat.brp else m.tdcOffset.toNat

/-- The loop delay is measured in an FD frame with BRS: it is shown, and the secondary sample point lies at that delay plus the offset
(R402). -/
def measureDelay (s : State) (n : Bus) (delay : Byte) : State :=
  s.modMb n (fun x => { x with tdc := delay, ssp := delay.toNat + tdcOffsetOf x })

/-- ATTEMPTS of a mailbox raised (R404, R408). -/
def countAttempt (s : State) (n : Bus) (m : Nat) : State × Nat :=
  let a := mbxBase n m + 5
  let w := (memGet s.msg a).toNat
  let k := min 255 (w / 256 + 1)
  ({ s with msg := memSet s.msg a (BitVec.ofNat 16 (256 * k + w % 256)) }, k)

/-- RETRY of a mailbox, 0 while no grant covers the block (R404). -/
def retryLimit (s : State) (n : Bus) (m : Nat) : Nat :=
  if expertGranted s (0x200 * mbBlock n) then bitsOf (mbxWord s n m 4) 7 0 else 0

/-- A failed attempt: the mailbox goes back to PENDING, or ends where an expiry, an abort or an honoured RETRY says so (R407, R408). -/
def failAttempt (s : State) (n : Bus) : State :=
  match (s.mb[n]).sending with
  | none => s
  | some (i, _, _) =>
    let (s1, k) := countAttempt s n i.val
    let ending := (s1.mb[n]).ending
    let s2 := s1.modMb n (fun x => { x with sending := none, ending := .none })
    match ending with
    | .expired => endMailbox s2 n i mbExpired
    | .aborted => endMailbox s2 n i mbAborted
    | .none =>
      let limit := retryLimit s2 n i.val
      if limit ≠ 0 ∧ limit ≤ k then endMailbox s2 n i mbRetryLimit else mbxSetState s2 n i.val mbPending

/-- ALONE threshold of the charter (R67, R417). -/
def aloneThreshold (s : State) (n : Bus) : Nat := match busRec s n with | some b => b.alone | none => 0

/-- NOACK counts failed attempts in a row whose error was an acknowledgement error (R417).
DESIGN CHOICE, log entry 67. -/
def noteAck (s : State) (n : Bus) (ackError : Bool) : State :=
  if !ackError then s.modMb n (fun x => { x with noAck := 0, alone := false })
  else
    let k := sat16 (s.mb[n]).noAck 1
    let s1 := s.modMb n (fun x => { x with noAck := k })
    if aloneThreshold s n ≠ 0 ∧ aloneThreshold s n ≤ k ∧ ¬ (s.mb[n]).alone then
      postDev (notifyBus (s1.modMb n (fun x => { x with alone := true })) n) 0x0702 (mbBlock n) (leBytes 1 n.val)
    else s1

/-- Bus-off (R416): nothing is sent; without HOLD the count of 128 begins at once.
DESIGN CHOICE, log entry 67. -/
def goBusOff (s : State) (n : Bus) : State :=
  let s1 := setBusPhase (s.modMb n (fun x => { useTiming x with tec := 256 })) n .busOff
  if (s1.mb[n]).hold then s1.modMb n (fun x => { x with held := true }) else setBusPhase s1 n .recovering

/-- The counters after an error (ISO 11898-1, R415, R417).
PRESUMED, log entry 66. -/
def errorCounters (m : MbState) (e : CanError) : MbState :=
  let more := 8 * e.moreDominant
  if e.transmitting then
    let spared := (e.kind = .ack ∧ m.phase = .passive ∧ e.passiveNoDominant) ∨ (e.kind = .stuff ∧ e.arbitrationStuff)
    { m with tec := m.tec + (if spared then 0 else 8) + more }
  else { m with rec_ := min 255 (m.rec_ + (if e.inFlag then 8 else 1) + (if e.dominantAfterFlag then 8 else 0) + more) }

/-- MBn.ERRCODE codes (R419). -/
def errorCode : CanErrKind → Nat
  | .stuff => 1
  | .form => 2
  | .ack => 3
  | .bit1 => 4
  | .bit0 => 5
  | .crc => 6

/-- The timing of the rate pair under trial (R414); a written set keeps its values until the next start (R16).
DESIGN CHOICE, log entry 126. -/
def trialTiming (s : State) (n : Bus) (k : Nat) : State :=
  match s.cht.charter, busRec s n with
  | some c, some b =>
    match b.rates[k]? with
    | some p =>
      let t := pairTiming (c.head.div.getD 8 25) p
      s.modMb n (fun x => if x.timWritten then x else { x with nom := t.1, dat := t.2 })
    | none => s
  | _, _ => s

/-- Rate detection leaves its pair for the next (R414). -/
def nextRate (s : State) (n : Bus) : State :=
  let count := match busRec s n with | some b => b.rates.length | none => 0
  let k := if (s.mb[n]).ardIdx + 1 < count then (s.mb[n]).ardIdx + 1 else 0
  trialTiming (s.modMb n (fun x => { x with ardIdx := k, ardRun := [] })) n k

/-- An error detected by the controller (R413-R417). One that it meets as a receiver while it had a mailbox SENDING comes after a lost
arbitration (R408). -/
def busError (s : State) (n : Bus) (e : CanError) : State :=
  let s0 := match e.delay with | some d => if e.transmitting then measureDelay s n d else s | none => s
  let s1 := (if e.transmitting then s0 else releaseSending s0 n).modMb n (fun x => { x with
    errCode := errorCode e.kind, errData := e.dataPhase })
  if (s.mb[n]).ard then afterFrame (nextRate s1 n) n
  else if (s.mb[n]).listen then afterFrame s1 n
  else
    let s2 := s1.modMb n (fun x => errorCounters x e)
    let s3 := if e.transmitting && (s2.mb[n]).sending.isSome then noteAck (failAttempt s2 n) n (decide (e.kind = .ack)) else s2
    if 256 ≤ (s3.mb[n]).tec then goBusOff s3 n else afterFrame (settleErrors s3 n) n

/-- CAN_ERROR: the controller detects a protocol error (R415). -/
def execCanError (n : Bus) (e : CanError) (s : State) : Out := .next (if onBus s.mb[n] then busError s n e else s)

/-! ### Responses of Obtum on a service bus (R438) -/

/-- Data bytes after the header of a segment: 6 on a classical bus, 62 on an FD bus (R438). -/
def segmentSize (s : State) (n : Bus) : Nat := match busRec s n with | some b => if b.flags.testBit 1 then 62 else 6 | none => 6

/-- The segments of a message, with index and LAST in their headers; every frame carries `size` data bytes (R438). -/
def segmentsOf (size : Nat) : Nat → Nat → List Byte → List (List Byte)
  | 0, _, _ => []
  | fuel + 1, i, bs =>
    if bs.length ≤ size then [leBytes 2 (i + 2 ^ 15) ++ padTo size bs] else (leBytes 2 i ++ bs.take size) :: segmentsOf size fuel (i + 1) (bs.drop size)

/-- The words of a mailbox that holds a segment: base identifier 0x6F8 + UNIT, FD format on an FD bus, LIFE and RETRY 0 (R404, R438). -/
def segmentWords (s : State) (n : Bus) (bs : List Byte) : List W16 :=
  let fd := match busRec s n with | some b => b.flags.testBit 1 | none => false
  let dlc := dlcFor bs.length
  let f : CanFrame := ⟨BitVec.ofNat 29 (0x6F8 + unitBit s), false, fd, fd && busSwitches s n, false, false, dlc, padTo (dlcBytes fd dlc) bs⟩
  frameHead f ++ [0, 0, BitVec.ofNat 16 mbPending, 0, 0] ++ dataWords f.data

/-- Vendor firmware loads the next segments into mailboxes 40-47, once none of them waits or is being sent, so that the segments leave in
order (R438).
DESIGN CHOICE, log entry 56. -/
def loadSegments (s : State) (n : Bus) : State :=
  let boxes := (List.range 8).map (40 + ·)
  if boxes.any (fun m => mbxState s n m == mbPending || mbxState s n m == mbSending) then s
  else
    let now := (s.obt.segs[n]).take 8
    let s1 := (boxes.zip now).foldl (fun acc p => { acc with msg := memWriteSeq acc.msg (mbxBase n p.1) (segmentWords acc n p.2) }) s
    { s1 with obt := { s1.obt with segs := s1.obt.segs.set n ((s.obt.segs[n]).drop 8) } }

/-- A response given on a service bus (R438). -/
def sendResponse (s : State) (n : Bus) (bytes : List Byte) : State :=
  loadSegments { s with obt := { s.obt with
    resp := s.obt.resp.set n bytes, segs := s.obt.segs.set n (s.obt.segs[n] ++ segmentsOf (segmentSize s n) bytes.length 0 bytes) } } n

/-- A frame acknowledged and sent without error to the end of EOF (R407).
PRESUMED, log entry 66. -/
def frameSent (s : State) (n : Bus) (i : Fin 64) (stamp : W32) : State :=
  let a := mbxBase n i.val
  let s1 := { s with msg := memSet (memSet s.msg (a + 6) (stamp.setWidth 16)) (a + 7) (stamp.extractLsb' 16 16) }
  let s2 := endMailbox s1 n i mbSent
  let s3 := s2.modMb n (fun x => { x with sending := none, ending := .none, tec := x.tec - 1, noAck := 0, alone := false })
  afterFrame (settleErrors (if 40 ≤ i.val ∧ i.val < 48 ∧ s.obt.segs[n] ≠ [] then loadSegments s3 n else s3) n) n

/-- CAN_FRAME_SENT: the frame being sent succeeds; `delay` is the loop delay measured in an FD frame with BRS, and a delay of 255 is a bit
error of the data phase (R402, R407).
DESIGN CHOICE, log entry 67. -/
def execCanFrameSent (n : Bus) (delay : Byte) (s : State) : Out :=
  .next (
    match (s.mb[n]).sending with
    | none => s
    | some (i, f, stamp) =>
      let measured := f.fdf && f.brs
      let s1 := if measured then measureDelay s n delay else s
      if measured ∧ delay = 255 then busError s1 n ⟨.bit0, true, true, false, false, false, false, 0, none⟩ else frameSent s1 n i stamp)

/-! ### Reception (R409-R411, R414, R438) -/

/-- First message RAM word of a controller's bank. -/
def bankBase (n : Bus) : Nat := 16384 * (n.val + 1)

/-- A word of the acceptance filters as it stood when a frame's arbitration field ended: `was` lists the words written since (R409). -/
def filterWord (s : State) (n : Bus) (was : List (Fin 512 × W16)) (i : Nat) : W16 :=
  match was.find? (fun p => p.1.val == i) with
  | some p => p.2
  | none => memGet s.msg (bankBase n + 0x1E00 + i)

/-- Filter `f` matches a frame (R409, R410). -/
def filterMatches (s : State) (n : Bus) (was : List (Fin 512 × W16)) (f : CanFrame) (k : Nat) : Bool :=
  let w := fun (j : Nat) => (filterWord s n was (4 * k + j)).toNat
  let width := if f.ide then 29 else 11
  let code := w 0 + 65536 * bitsOf (w 1) 12 0
  let mask := w 2 + 65536 * bitsOf (w 3) 12 0
  (w 1).testBit 15 && (w 1).testBit 14 == f.ide && ((f.id.toNat ^^^ code) &&& mask) % 2 ^ width == 0

/-- The first filter that matches, with its REJECT bit. -/
def firstFilter (s : State) (n : Bus) (was : List (Fin 512 × W16)) (f : CanFrame) : Option (Nat × Bool) :=
  ((List.range 128).find? (filterMatches s n was f)).map (fun k => (k, (filterWord s n was (4 * k + 3)).getLsbD 15))

/-- A frame stored in the receive FIFO, or lost to a full one (R411); either is notified (R418, R468). -/
def storeFrame (s : State) (n : Bus) (f : CanFrame) (filter : Nat) (stamp : W32) : State :=
  let m := s.mb[n]
  if 128 ≤ m.rxCount then
    let k := sat16 m.rxOvrCount 1
    let s1 := s.modMb n (fun x => { x with rxOvr := true, rxOvrCount := k })
    postDev (notifyBus s1 n) 0x0703 (mbBlock n) (leBytes 1 n.val ++ leBytes 1 0 ++ leBytes 2 k)
  else
    let head := frameHead f
    let w2 := BitVec.ofNat 16 ((head.getD 2 0).toNat + 2 ^ 5 * bit f.esi + 2 ^ 8 * filter)
    let words := [head.getD 0 0, head.getD 1 0, w2, 0, 0, 0, stamp.setWidth 16, stamp.extractLsb' 16 16] ++ dataWords (frameData f)
    notifyBus ({ s with msg := memWriteSeq s.msg (bankBase n + 0xA00 + 40 * ((m.rxHead + m.rxCount) % 128)) words }.modMb n
      (fun x => { x with rxCount := x.rxCount + 1 })) n

/-- The bus is a service bus (R67, R438). -/
def serviceBus (s : State) (n : Bus) : Bool := match busRec s n with | some b => b.flags.testBit 4 | none => false

/-- The message that the segments of a request bring, without the padding of the last one (R438, R439).
DESIGN CHOICE, log entry 56. -/
def requestBytes (size : Nat) (bytes : List Byte) : List Byte :=
  let n := 8 + leAt bytes 2 2
  if n ≤ bytes.length ∧ bytes.length < n + size then bytes.take n else bytes

/-- A segment of an Obtum request on a service bus (R438). -/
def takeSegment (s : State) (n : Bus) (bs : List Byte) : State :=
  let h := leAt bs 0 2
  let index := h % 16384
  let put := fun (r : Option BusReq) => { s with obt := { s.obt with rx := s.obt.rx.set n r } }
  let whole := fun (bytes : List Byte) =>
    let s1 := put none
    { s1 with obt := { s1.obt with reqs := s1.obt.reqs ++ [(.bus n, requestBytes (segmentSize s n) bytes)] } }
  let take := fun (before : List Byte) =>
    let bytes := before ++ bs.drop 2
    if h.testBit 15 then whole bytes else put (some ⟨index + 1, bytes⟩)
  if bs.length ≠ segmentSize s n + 2 then s
  else if index = 0 then take []
  else match s.obt.rx[n] with
    | some r => if r.next = index then take r.bytes else put none
    | none => s

/-- A valid frame placed (R409), with the filter that decides it where neither ingress nor Obtum takes it. -/
def placeFrame (s : State) (n : Bus) (f : CanFrame) (filter : Option (Nat × Bool)) (stamp : W32) : State :=
  match ingressMatch s n f with
  | some (r, k) => takeIngressFrame s r k f
  | none =>
    if serviceBus s n ∧ ¬ f.ide ∧ f.id.toNat = 0x6F0 + unitBit s then takeSegment s n (frameData f)
    else if serviceBus s n ∧ ¬ f.ide ∧ f.id.toNat = 0x6F8 + unitBit s then s
    else match filter with
      | some (k, false) => storeFrame s n f k stamp
      | _ => s

/-- The receive counter after a valid frame (ISO 11898-1): above 127 it returns to a value from 119 to 127.
PRESUMED, log entry 66. -/
def receivedOk (s : State) (n : Bus) : State :=
  let r := (s.mb[n]).rec_
  if r = 0 then s
  else if r ≤ 127 then s.modMb n (fun x => { x with rec_ := r - 1 })
  else
    let f := s.takeFree
    f.1.modMb n (fun x => { x with rec_ := 119 + (Config.freeWord f.2).toNat % 9 })

/-- The timing of an accepted pair (R400, R414). -/
def acceptedTiming (s : State) (n : Bus) (k : Nat) : BitTiming × BitTiming :=
  match s.cht.charter, busRec s n with
  | some c, some b => pairTiming (c.head.div.getD 8 25) (b.rates.getD k (b.nominal, b.data))
  | _, _ => ((s.mb[n]).nom, (s.mb[n]).dat)

/-- A frame received under rate detection (R414): four valid frames in a row accept the pair, one of them with BRS where its rates differ.
DESIGN CHOICE, log entry 68. -/
def detectRate (s : State) (n : Bus) (f : CanFrame) (filter : Option (Nat × Bool)) (stamp : W32) : State :=
  let m := s.mb[n]
  let run := m.ardRun ++ [(f, stamp, filter)]
  let differs : Bool := match (busRec s n).bind (fun b => b.rates[m.ardIdx]?) with | some p => p.1 != p.2 | none => false
  if decide (4 ≤ run.length) && (!differs || run.any (fun x => x.1.brs)) then
    let s1 := notifyBus (s.modMb n (fun x =>
      let y := { x with ard := false, listen := true, found := true, rateIdx := m.ardIdx, ardRun := [] }
      if y.nbtWritten then y else showTiming y (acceptedTiming s n m.ardIdx))) n
    let s2 := postDev s1 0x0705 (mbBlock n) (leBytes 1 n.val ++ leBytes 1 m.ardIdx)
    run.foldl (fun acc x => placeFrame acc n x.1 x.2.2 x.2.1) s2
  else s.modMb n (fun x => { x with ardRun := run })

/-- CAN_FRAME_RECEIVED: a valid frame is taken at the sixth bit of its EOF (R409, R412). A mailbox that was SENDING has lost that
arbitration (R408).
DESIGN CHOICE, log entry 68. -/
def execCanFrameReceived (n : Bus) (f : CanFrame) (x : Arrival) (s : State) : Out :=
  .next (
    let m := s.mb[n]
    let filter := firstFilter s n x.was f
    if !onBus m then s
    else if m.ard then afterFrame (detectRate s n f filter x.sof) n
    else if m.listen then afterFrame (placeFrame s n f filter x.sof) n
    else afterFrame (settleErrors (placeFrame (receivedOk (releaseSending s n) n) n f filter x.sof) n) n)

/-- OBT_GAP_EXPIRY: ING.OBT_GAP ms have passed since the last segment (R438). -/
def execObtGapExpiry (n : Bus) (s : State) : Out := .next { s with obt := { s.obt with rx := s.obt.rx.set n none } }

/-! ### Integration, exceptions and recovery (R397, R398, R414, R416) -/

/-- PROTOCOL_EXCEPTION: a recessive res bit; a frame being transmitted stays pending, but for an expiry or an abort that waited for its end
(R397, R407). A timing set that waited for the frame's end takes effect (R401). -/
def execProtocolException (n : Bus) (s : State) : Out :=
  .next (
    if onBus s.mb[n] then
      setBusPhase (postDev ((releaseSending s n).modMb n (fun x => { useTiming x with pxe := true })) 0x0704 (mbBlock n) (leBytes 1 n.val)) n .integrating
    else s)

/-- BUS_INTEGRATION_END: 11 consecutive recessive bits; the counters keep their values (R398, R401). -/
def execBusIntegrationEnd (n : Bus) (s : State) : Out :=
  .next (
    let m := s.mb[n]
    if m.phase = .integrating then setBusPhase s n (if m.tec < 128 ∧ m.rec_ < 128 then .active else .passive) else s)

/-- BUS_OFF_RECOVERY: 128 occurrences of 11 consecutive recessive bits (R416). -/
def execBusOffRecovery (n : Bus) (s : State) : Out :=
  .next (if (s.mb[n]).phase = .recovering then setBusPhase (s.modMb n (fun x => { x with tec := 0, rec_ := 0 })) n .active else s)

/-- LIFETIME_EXPIRY: a mailbox's lifetime passes; while SENDING it takes effect when the frame ends (R407). -/
def execLifetimeExpiry (n : Bus) (m : Fin 64) (s : State) : Out :=
  .next (
    if (s.mb[n]).lifeOn.getLsbD m.val then
      if mbxState s n m.val = mbPending then endMailbox s n m mbExpired
      else if mbxState s n m.val = mbSending ∧ (s.mb[n]).ending = .none then s.modMb n (fun x => { x with ending := .expired })
      else s
    else s)

/-- ARD_DWELL_EXPIRY: ARD_DWELL ms without a valid frame (R414). -/
def execArdDwellExpiry (n : Bus) (s : State) : Out := .next (if (s.mb[n]).ard ∧ (s.mb[n]).phase ≠ .disabled then nextRate s n else s)

/-! ### Ports that act (R405-R407, R411, R414, R416, R419, R420) -/

/-- A port of controller `n` (R419). -/
def mbPort (n : Bus) (off : Nat) : Nat := 0x1400 + 0x200 * n.val + off

/-- Mailboxes that bit i of port q names. -/
def maskMailboxes (q : Fin 4) (mask : W16) : List (Fin 64) :=
  ((List.finRange 16).filter (fun i => mask.getLsbD i.val)).map (fun i => ⟨16 * q.val + i.val, by omega⟩)

/-- A write to TXSET, TXABORT or TXDONE for an egress mailbox is refused (R405). -/
def mailboxWrite (s : State) (n : Bus) (q : Fin 4) (effect : State → State) : State :=
  if q = 3 ∧ egressBus s n then s.modMb n (fun x => { x with mbxDenied := true }) else effect s

/-- A mailbox made PENDING: ATTEMPTS 0, lifetime started (R406). -/
def setPending (n : Bus) (s : State) (m : Fin 64) : State :=
  let st := mbxState s n m.val
  if st = mbPending ∨ st = mbSending then s
  else
    let a := mbxBase n m.val + 5
    let live := mbxWord s n m.val 3 != 0
    { s with msg := memSet s.msg a (BitVec.ofNat 16 mbPending) }.modMb n (fun x => { x with
      lifeOn := if live then x.lifeOn ||| (1#64 <<< m.val) else x.lifeOn &&& ~~~(1#64 <<< m.val) })

/-- A mailbox aborted, at once or when its frame ends (R407). -/
def abortMailbox (n : Bus) (s : State) (m : Fin 64) : State :=
  let st := mbxState s n m.val
  if st = mbPending then endMailbox s n m mbAborted
  else if st = mbSending ∧ (s.mb[n]).ending = .none then s.modMb n (fun x => { x with ending := .aborted })
  else s

def txsetEffect (n : Bus) (q : Fin 4) (mask : W16) (s : State) : State :=
  mailboxWrite s n q (fun x => (maskMailboxes q mask).foldl (setPending n) x)
def txabortEffect (n : Bus) (q : Fin 4) (mask : W16) (s : State) : State :=
  mailboxWrite s n q (fun x => (maskMailboxes q mask).foldl (abortMailbox n) x)
def txdoneEffect (n : Bus) (q : Fin 4) (mask : W16) (s : State) : State :=
  mailboxWrite s n q (fun x => x.modMb n (fun y => { y with txDone := y.txDone &&& ~~~((mask.setWidth 64) <<< (16 * q.val)) }))

/-- MB_TXSET (R406). -/
def execMbTxset (n : Bus) (q : Fin 4) (mask : W16) (p : Bool) (s : State) : Out :=
  .next (gatedWrite s (mbPort n (8 + q.val)) p (txsetEffect n q mask))

/-- MB_TXABORT (R407). -/
def execMbTxabort (n : Bus) (q : Fin 4) (mask : W16) (p : Bool) (s : State) : Out :=
  .next (gatedWrite s (mbPort n (0xC + q.val)) p (txabortEffect n q mask))

/-- A pop while the FIFO is empty is ignored (R411). -/
def rxfPopEffect (n : Bus) (s : State) : State :=
  s.modMb n (fun x => if x.rxCount = 0 then x else { x with rxHead := (x.rxHead + 1) % 128, rxCount := x.rxCount - 1 })

/-- MB_RXF_POP (R411). -/
def execMbRxfPop (n : Bus) (p : Bool) (s : State) : Out := .next (gatedWrite s (mbPort n 0x16) p (rxfPopEffect n))

/-- GO_ACTIVE takes a listen-only controller onto the bus; before a rate is accepted it is ignored (R414). -/
def goActiveEffect (n : Bus) (s : State) : State := s.modMb n (fun x => if x.ard then x else { x with listen := false })

/-- GO_ACTIVE (R414). -/
def execGoActive (n : Bus) (p : Bool) (s : State) : Out := .next (gatedWrite s (mbPort n 3) p (goActiveEffect n))

/-- RELEASE starts the recovery of a held bus-off (R416). -/
def mbReleaseEffect (n : Bus) (s : State) : State :=
  if (s.mb[n]).held then setBusPhase (s.modMb n (fun x => { x with held := false })) n .recovering else s

/-- MB_RELEASE (R416). -/
def execMbRelease (n : Bus) (p : Bool) (s : State) : Out := .next (gatedWrite s (mbPort n 3) p (mbReleaseEffect n))

/-- The timing set that a write to NBT0 applies, with what was written to the other three ports (R420). -/
def writtenTiming (m : MbState) (nbt0 : W16) : BitTiming × BitTiming :=
  let v := nbt0.toNat
  let n1 := m.newNbt1.toNat
  let d0 := m.newDbt0.toNat
  let d1 := m.newDbt1.toNat
  (⟨bitsOf v 4 0 + 1, bitsOf v 15 8 + 1, bitsOf n1 5 0 + 1, bitsOf n1 13 8 + 1⟩,
   ⟨bitsOf d0 4 0 + 1, bitsOf d0 12 8 + 1, bitsOf d1 3 0 + 1, bitsOf d1 11 8 + 1⟩)

/-- A set satisfies R401. -/
def timingValid (t : BitTiming × BitTiming) : Bool :=
  within t.1.tseg1 2 192 && within t.1.tseg2 1 64 && decide (t.1.sjw ≤ t.1.tseg2) &&
    within t.2.tseg1 1 32 && within t.2.tseg2 1 16 && decide (t.2.sjw ≤ t.2.tseg2)

/-- A frame is in progress on the bus: one of the controller's own, or, as the model does not follow the bits of the bus, a free choice.
DESIGN CHOICE, log entry 68. -/
def frameRuns (s : State) (n : Bus) : State × Bool :=
  if (s.mb[n]).sending.isSome then (s, true)
  else
    let (s1, k) := s.takeFree
    (s1, Config.freeBool k)

/-- A write of NBT0 (R401): a valid set takes effect after the frame in progress.
DESIGN CHOICE, log entry 68. -/
def timingEffect (n : Bus) (value : W16) (s : State) : State :=
  let t := writtenTiming s.mb[n] value
  if !timingValid t then s.modMb n (fun x => { x with timDenied := true, nbtWritten := true })
  else
    let s1 := s.modMb n (fun x => { x with
      newTiming := some t, nbt0 := value &&& 0xFF1F#16, nbtWritten := true, timWritten := true })
    if !onBus s.mb[n] then s1.modMb n useTiming
    else
      let (s2, runs) := frameRuns s1 n
      if runs then s2 else afterFrame s2 n

/-- MB_TIMING_WRITE: an expert write of MBn.NBT0 (R401). -/
def execMbTimingWrite (n : Bus) (value : W16) (p : Bool) (s : State) : Out :=
  .next (gatedWrite s (mbPort n 0x100) p (timingEffect n value))

/-- A read of ERRCODE returns and clears it, and ends the STATE condition of the vector (R419). -/
def errcodeEffect (n : Bus) (s : State) : State :=
  let m := s.mb[n]
  let s1 := s.modMb n (fun x => { x with errCode := 0, errData := false, stateChanged := false })
  { s1 with hf := { s1.hf with portIn := fields [(8, bit m.errData), (0, m.errCode)] } }

/-- MB_ERRCODE_READ (R419). -/
def execMbErrcodeRead (n : Bus) (p : Bool) (s : State) : Out := .next (gatedRead s (mbPort n 0x1E) p (errcodeEffect n))

/-- A read of TIME_LO latches TIME_HI (R419). -/
def timeLoEffect (n : Bus) (s : State) : State :=
  let t := s.seq.ut
  let s1 := s.modMb n (fun x => { x with timeHi := t.extractLsb' 16 16 })
  { s1 with hf := { s1.hf with portIn := t.setWidth 16 } }

/-- MB_TIME_LO_READ (R419). -/
def execMbTimeLoRead (n : Bus) (p : Bool) (s : State) : Out := .next (gatedRead s (mbPort n 0x1C) p (timeLoEffect n))

end Sys2Proof.Machine
end

