-- ==== Sys2Proof/Machine/Reset.lean ====
section
/-! DEFINITION. The reset sources, reset rollback, the retention check and reset release (R87-R93). -/

namespace Sys2Proof.Machine

open Sys2Proof

/-! ### Reset sources (R87) -/

/-- A rail stands above its power-on threshold. -/
def railUp (s : State) (rail : PowerRail) : Bool :=
  match rail with
  | .vddCore => s.sup.core
  | .vddLin => s.sup.lin
  | .vhold => s.sup.hold

/-- POWER_ON: a rail rises through its power-on threshold. The rise of a rail that fell in this reset is later than its fall (R88).
DEDUCED, log entries 77, 78. -/
def execPowerOn (rail : PowerRail) (s : State) : Out :=
  let s1 := resetSource (if railUp s rail then s else endTogether s) 0
  .next { s1 with
    tap := { s1.tap with ir := 0x01, nonce := none, status := 0, checking := none }
    fd := leaveLoopback s1.fd
    sup := match rail with
    | .vddCore => { s1.sup with core := true }
    | .vddLin => { s1.sup with lin := true }
    | .vhold => { s1.sup with hold := true } }

/-- BROWN_OUT: VDD_CORE or VDD_LIN falls below its brown-out threshold: RET_OK resets (R93), and a retain copy stops (R501, R611). -/
def execBrownOut (rail : BrownRail) (s : State) : Out :=
  let s1 := tearCopy (resetSource s 1)
  let s2 := { s1 with sup := match rail with
    | .vddCore => { s1.sup with core := false }
    | .vddLin => { s1.sup with lin := false } }
  .next (s2.modSys (fun y => { y with retOk := false }))

/-- EXTERNAL_RESET: nRESET is held low; a pulse shorter than 0.2 µs is filtered out, one from 0.2 µs to 1 µs may or may not reset.
DEDUCED, log entry 76. -/
def execExternalReset (lowNs : Nat) (s : State) : Out :=
  .next (
    if lowNs < 200 then s
    else if 1000 ≤ lowNs then resetSource s 2
    else
      let f := s.takeFree
      if Config.freeBool f.2 then resetSource f.1 2 else f.1)

/-- PLL_LOSS_OF_LOCK (R447): while the lanes run it is a reset of CAUSE 3; otherwise the root is held. -/
def execPllLossOfLock (why : PllLoss) (s : State) : Out :=
  let s1 := { s with sup := { s.sup with pllLow := s.sup.pllLow || decide (why = PllLoss.supply) } }
  let s2 := s1.modClk (fun k => { k with lock := false })
  .next (if s.sys.state = .running then resetSource s2 3 else s2)

/-- SYS_RST_WARM: a write of 0x5AF0 to SYS.RST requests a warm-eligible reset (R110). -/
def execSysRstWarm (p : Bool) (s : State) : Out := .next (gatedWrite s 0x0002 p (resetSource · 5))

/-- SYS_RST_COLD: a write of 0x5AF1 to SYS.RST requests a reset of cold class (R92). -/
def execSysRstCold (p : Bool) (s : State) : Out := .next (gatedWrite s 0x0002 p coldReset)

/-! ### Reset rollback (R91) -/

/-- A journal record that the rollback undoes no longer reads, or a word that it writes in place, whose double word it must read (R30), does
not: the rollback stops. -/
def rollbackBad (s : State) (l : LaneId) : Bool :=
  let x := s.lane l
  x.undoBad (unagreed s l) || (x.undoWords (unagreed s l)).any x.wordBad

/-- RESET_ROLLBACK: every tracked segment returns to its state at the last commit; an uncorrectable error stops it in that lane. -/
def execResetRollback (s : State) : Out :=
  .next (
    if s.sys.phase = .entered ∧ s.pil.store = .none ∧ ¬ s.sys.coldClass then
      let a := undoLane s .a
      let b := undoLane s .b
      { s with
        laneA := if rollbackBad s .a then s.laneA else { a with cycles := Vector.replicate 16 none }
        laneB := if rollbackBad s .b then s.laneB else { b with cycles := Vector.replicate 16 none }
        sys := { s.sys with phase := .rolledBack, together := false, rollbackFailed := rollbackBad s .a || rollbackBad s .b } }
    else s)

/-! ### The retention check (R92) -/

/-- RET words of a lane. -/
def retAddresses (s : State) (l : LaneId) : List Nat :=
  ((descTable s l).filter (fun (d : SegRec) => d.kind == 3)).flatMap (fun (d : SegRec) => (List.range d.limit).map (d.base + ·))

/-- Every RET word reads, and in paired mode equal in both lanes. -/
def retainedDataOk (s : State) : Bool :=
  (retAddresses s .a).all (fun a => !s.laneA.wordBad a) && (retAddresses s .b).all (fun a => !s.laneB.wordBad a) &&
    (isSplit s || (retAddresses s .a).all (fun a => memGet s.laneA.mem a == memGet s.laneB.mem a))

/-- The first condition that fails, 0 where all hold (R110 WHY). -/
def retentionWhy (s : State) : Nat :=
  if s.sys.coldClass then 1
  else if !s.sys.retOk then 2
  else if s.sys.rollbackFailed then 3
  else if !retainedDataOk s then 4
  else if s.cht.charter.isNone then 5
  else if s.sec.open_ then 6
  else 0

/-! ### Reset release (R90, R92) -/

/-- A channel of the field die after a reset: what it shows of its record, its latch and its flags is gone, and its thermal state, its filter
and its times stand (R96, R395).
DEDUCED, log entry 78. -/
def ChanSt.forget (x : ChanSt) : ChanSt :=
  { x with
    cfg := FieldRec.init, cmd := false, latched := false, missed := 0, pulsePassed := false, pulseFail := false, mismatch := false
    overtemp := false, openOff := false, openOn := false, overload := false, senseHigh := false, wireBreak := false
    thermalLatch := false, shutdowns := 0 }

/-- What outlives every reset: the BACKUP island with its staging discarded (R109, R513), the pillar, the fuses, flash (a directory page
write that the reset cuts leaves a torn page beside the old one, R109), keys, supplies, the field die and the queue of commands.
DEDUCED, log entry 78. -/
def keepAlways (s : State) (t : State) : State :=
  { t with
    bkp := { s.bkp with setYm := 0, setDh := 0, setMs := 0 }
    pil := { t.pil with
      sram := s.pil.sram, bad := s.pil.bad, single := s.pil.single, bank0 := s.pil.bank0, bank1 := s.pil.bank1, pfw := s.pil.pfw
      pfwClearDue := s.pil.pfwClearDue }
    fuses := s.fuses
    flash := s.flash
    xsp := { t.xsp with inUse := s.xsp.inUse }
    sec := { t.sec with keys := s.sec.keys, serial := s.sec.serial }
    tap := { s.tap with prod := false, checking := none, refused := false, status := if s.tap.status = 1 ∨ s.tap.status = 2 then 0 else s.tap.status }
    obt := { t.obt with nonces := s.obt.nonces }
    age := { t.age with
      life := s.age.life, powered := s.age.powered, log := s.age.log, plans := s.age.plans, gainA := s.age.gainA, stepsA := s.age.stepsA
      gainB := s.age.gainB, stepsB := s.age.stepsB, mayLower := s.age.mayLower }
    sup := s.sup
    fd := { holdOff s.fd with discarded := 0, configured := false, ch := (holdOff s.fd).ch.map ChanSt.forget }
    free := s.free
    pending := s.pending }

/-- What a warm start keeps: RET words, the charter in effect, and every port whose Warm entry is keep; the epoch is the one stored in
the pillar (R329).
DEDUCED, log entry 78. -/
def keepWarm (s : State) (t : State) : State :=
  { t with
    cht := s.cht
    fd := { t.fd with
      discarded := s.fd.discarded, ch := Vector.ofFn (fun i : Fin 32 => { t.fd.ch[i] with cfg := (s.fd.ch[i]).cfg }) }
    laneA := { t.laneA with mem := s.laneA.mem, bad := s.laneA.bad, single := s.laneA.single, ldo := s.laneA.ldo, blocks := s.laneA.blocks }
    laneB := { t.laneB with mem := s.laneB.mem, bad := s.laneB.bad, single := s.laneB.single, ldo := s.laneB.ldo, blocks := s.laneB.blocks }
    seq := { t.seq with
      fltValid := s.seq.fltValid, fltDouble := s.seq.fltDouble, fltPass := s.seq.fltPass, fltTask := s.seq.fltTask
      fltCode := s.seq.fltCode, fltOneLane := s.seq.fltOneLane, fltLane := s.seq.fltLane, fltPc := s.seq.fltPc
      fltElem := s.seq.fltElem, fltCyc := s.seq.fltCyc }
    asy := { t.asy with
      perm := s.asy.perm, misValid := s.asy.misValid, misTripA := s.asy.misTripA, misTripB := s.asy.misTripB, misTask := s.asy.misTask
      misCode := s.asy.misCode, misCyc := s.asy.misCyc, misN := s.asy.misN, transients := s.asy.transients, sigA := s.asy.sigA
      sigB := s.asy.sigB, agreed := s.asy.agreed }
    tly := { t.tly with
      task := Vector.ofFn (fun i : Fin 16 => { t.tly.task[i] with
        dupCount := s.tly.task[i].dupCount, missCount := s.tly.task[i].missCount, seqCount := s.tly.task[i].seqCount })
      firstValid := s.tly.firstValid, firstKind := s.tly.firstKind, firstTask := s.tly.firstTask, firstReaction := s.tly.firstReaction
      firstCyc := s.tly.firstCyc, firstPos := s.tly.firstPos, firstGot := s.tly.firstGot }
    wdt := { t.wdt with trip := s.wdt.trip, land := s.wdt.land }
    pair := { t.pair with
      high := BitVec.ofNat 31 (pilNat s sysEpoch 4), handTime := s.pair.handTime, linkErr := s.pair.linkErr, missed := s.pair.missed,
        lags := s.pair.lags
      swaps := s.pair.swaps }
    hf := { t.hf with
      double := s.hf.double, faultValid := s.hf.faultValid, faultPf := s.hf.faultPf, faultVec := s.hf.faultVec, faultPc := s.hf.faultPc
      faultAddr := s.hf.faultAddr }
    fld := { t.fld with selftest := s.fld.selftest, silentCnt := s.fld.silentCnt, errRx := s.fld.errRx, errFd := s.fld.errFd }
    ing := { t.ing with
      malformed := s.ing.malformed, orphan := s.ing.orphan, incomplete := s.ing.incomplete, withdrawn := s.ing.withdrawn
      recErr := s.ing.recErr }
    seam := { t.seam with stuckTarget := s.seam.stuckTarget, stuckReq := s.seam.stuckReq, stuckCnt := s.seam.stuckCnt }
    hlt := { t.hlt with ovr := s.hlt.ovr }
    age := { s.age with
      planRun := false, planA := .idle, planB := .idle, slsel := t.age.slsel, canary := t.age.canary, ro := t.age.ro
      canaryTurn := t.age.canaryTurn, roTurn := t.age.roTurn
      slackTarget := t.age.slackTarget, slackMin := t.age.slackMin }
    pil := { t.pil with
      recallOk := s.pil.recallOk, torn := s.pil.torn, corrCnt := s.pil.corrCnt, uncorrPg := s.pil.uncorrPg, storeT := s.pil.storeT }
    sec := { t.sec with
      failValid := s.sec.failValid, failKind := s.sec.failKind, failCode := s.sec.failCode, failBlk := s.sec.failBlk, lgen := s.sec.lgen
      fwVersion := s.sec.fwVersion } }

/-- The ports of the charter in effect, which a warm start goes on with (R85). -/
def warmPorts (t : State) : State := match t.cht.charter with | some c => charterPorts t c | none => t

/-- The part as reset release leaves it: the start chosen, with what SYS reports of it.
DESIGN CHOICE, log entry 3; DEDUCED, log entry 78. -/
def releaseReset (s : State) : State :=
  let why := if s.sys.coldAsked then 0 else if coldCause s.sys.cause then 0 else retentionWhy s
  let warm := !s.sys.coldAsked && !coldCause s.sys.cause && why == 0
  let base := keepAlways s State.reset
  let t := if warm then warmPorts (keepWarm s base) else base
  { t with sys := { t.sys with
      state := .starting, phase := .released warm, warm := warm, cause := s.sys.cause, why := why, retFail := why != 0
      nested := s.sys.nested, held := s.sys.held, retOk := s.sys.retOk, step := s.sys.step
      code := s.sys.code, tstart := s.sys.tstart, coldClass := s.sys.coldClass, tripPending := s.sys.tripPending, startWdt := true } }

/-- RESET_RELEASE: once no store runs, every rail is valid, and a warm-eligible reset has been rolled back (R90, R582). -/
def execResetRelease (s : State) : Out :=
  .next (
    let ready := s.sys.phase == .rolledBack || (s.sys.phase == .entered && s.sys.coldClass)
    if ready && s.pil.store == .none && s.sup.core && s.sup.lin && s.sup.hold then releaseReset s else s)

end Sys2Proof.Machine
end

