-- ==== Sys2Proof/Machine/Pair.lean ====
section
/-! DEFINITION. Roles, claims and swaps of a pair (R319-R355): taking a claim, standing by, handing over, and the commands that are not a
received frame. What a received frame does stands in PairRx. -/

namespace Sys2Proof.Machine

open Sys2Proof

def State.modPair (s : State) (f : PairState → PairState) : State := { s with pair := f s.pair }

/-- A change of role with its event (R529): cause 0 negotiation, 1 swap, 2 takeover. -/
def changeRole (s : State) (r : Role) (cause : Nat) : State :=
  if s.pair.role = r then s else postRoleChange (setRole s r) s.pair.role r cause

/-- An epoch seen (R329). -/
def seeEpoch (s : State) (e : Nat) : State := s.modPair (fun p => { p with high := BitVec.ofNat 31 (max p.high.toNat (e % 2 ^ 31)) })

/-- The epoch of a claim is seen (R328). -/
def seeClaim (s : State) (claim : W32) : State := seeEpoch s (claim.toNat / 2)

/-- SWAP_REFUSED (R347, R349). -/
def postSwapRefused (s : State) (reason : Nat) : State :=
  postDev (s.modPair (fun p => { p with swapRefused := true })) 0x0505 8 (leBytes 1 reason)

/-! ### Mirror-lag (R343) -/

/-- The standby enters mirror-lag: 1 LAG frame, 2 SEQ gap, 3 bad delta. -/
def enterLag (s : State) (cause : Nat) : State :=
  if s.pair.mirror = .lag then s
  else postDev (s.modPair (fun p => { p with
    mirror := .lag, lags := sat16 p.lags 1, lagSeen := true, resyncLeft := none, rxDelta := [], rxDeltaOk := false })) 0x0503 8
    (leBytes 1 cause)

/-! ### Tasks across a change of role (R341, R348) -/

/-- The number of the cycle after the one that a trailer closed (R119). -/
def nextNumber (tr : Trailer) : W32 := if tr.overrun then tr.cycle + 2 else tr.cycle + 1

/-- The commit trailer that stands for a task in the hand token (R348): that of its last closed cycle, or, where the task has closed none
since it was started, one from which it goes on with the number that it has. -/
def ownTrailer (s : State) (t : Task) : Trailer :=
  let k := s.task t
  let stopped := match k.phase with
    | .stopped => true
    | .faulted => true
    | _ => false
  let fresh : Trailer := ⟨BitVec.ofNat 8 t.val, false, false, 0, k.number - 1, 0, 0, 0⟩
  let last : Trailer := match s.pair.mtasks[t] with
    | some tr => if nextNumber tr = k.number then tr else fresh
    | none => fresh
  { last with stopped := stopped, consecutive := BitVec.ofNat 8 k.consec, next := nextStart k, records := 0 }

/-- The hand token of the state now (R348). -/
def ownToken (s : State) : HandToken where
  utime := s.seq.ut
  high := s.pair.high.setWidth 32
  dseq := s.pair.dseq
  tasks := allTasks.map (ownTrailer s)
  seqs := (List.finRange 512).map (fun b => (egrBlk s b).seq.setWidth 16)

/-- The mirrored state of all tasks, from a token. -/
def takeTasks (s : State) (ts : List Trailer) : State :=
  s.modPair (fun p => { p with mtasks := Vector.ofFn (fun t : Fin 16 => ts[t.val]?) })

/-- On a standby every task reports STOPPED and the lanes run nothing (R341). -/
def standTasks (s : State) : State :=
  { s with seq := { s.seq with tasks := s.seq.tasks.map (fun (k : TaskSt) => { k with phase := .stopped, stopReq := false }) } }

/-- A task of the new active part: its next start is the first tick at or after the later of its mirrored next start and the take, which
falls between two ticks; it continues its cycle number (R348). -/
def resumeTask (s : State) (t : Task) : State :=
  match s.pair.mtasks[t] with
  | none => s
  | some tr =>
    if tr.stopped then s
    else
      let first := s.seq.ut + 1
      s.modTask t (fun k => { k with
        phase := .ready (if first.ule tr.next then tr.next else first), number := nextNumber tr, consec := tr.consecutive.toNat
        firstCycle := false, overrun := false, stopReq := false })

/-- Egress sequence counters from a token (R428, R348). -/
def takeSeqs (s : State) (seqs : List W16) : State :=
  (List.finRange 512).foldl (fun acc b =>
    match egressRec acc b with
    | some _ => { acc with ing := { acc.ing with egr := putBlk acc.ing.egr b { egrBlk acc b with seq := (seqs.getD b.val 0).setWidth 7 } } }
    | none => acc) s

/-! ### Taking a claim (R329-R331, R610) -/

/-- The part becomes ACTIVE, and any swap has succeeded: the periodic swap's timer starts (R346). -/
def armSwap (s : State) : State :=
  s.modPair (fun p => { p with
    swapLeft := match s.cht.charter.bind (fun c => c.pair) with | some r => some (r.swapH * 3600000000) | none => none
    swapRetryDue := false })

/-- The command frame of a take: the mirrored outputs and the claim, with RELEASE (R348, R389). -/
def takeCommand (s : State) : State :=
  let out := outputBits s s.laneA
  let stamp : W32 := BitVec.ofNat 32 s.seq.ut.toNat
  { s with fld := { s.fld with waiting := some ⟨out, stamp, true⟩, out := out, stamp := stamp } }

/-- AUTOSTART tasks of a take after the start has completed (R610). -/
def lateStart (s : State) : State := (autostarts s).foldl startTask { s with fld := { s.fld with firstRelease := true } }

/-- The new active part after a swap or a takeover (R348, R351). -/
def becomeActive (s : State) (cause : Nat) : State :=
  let s1 := armSwap (takeCommand (changeRole s .active cause))
  let s2 := allTasks.foldl resumeTask s1
  s2.modPair (fun p => { p with swaps := sat16 p.swaps 1, mirror := .none, resyncLeft := none })

/-- A take that succeeded (R329, R330): the claim is held, and the role that called for it follows. From the take on, a takeover goes as a
swap does (R351), CONFIRM included. -/
def taken (s : State) (why : TakeFor) (epoch : Nat) : State :=
  let claim : W32 := BitVec.ofNat 32 (2 * epoch + claimUnit s)
  let s1 := forceBypass (s.modPair (fun p => { p with
    high := BitVec.ofNat 31 epoch, claim := claim, lastClaim := claim, withdrawing := false, take := none, retake := none }))
  let enter := fun (s : State) => if s.sys.phase = .negotiating then completeStart s true else lateStart s
  match why with
  | .alone => enter (changeRole s1 .alone 0)
  | .active => enter (armSwap (changeRole s1 .active 0))
  | .swap => becomeActive (queueFrame s1 (.confirm claim s1.pair.dseq)) 1
  | .takeover =>
    -- every sequence counter begins at 0 under the new claim (R428)
    let zeroed := s1.ing.egr.map (fun p => (p.1, { p.2 with seq := 0 }))
    becomeActive (queueFrame { s1 with ing := { s1.ing with egr := zeroed } } (.confirm claim s1.pair.dseq)) 2

/-- A take that failed: 1 POWER, 2 EXHAUSTED (R330, R331, R610, R350). -/
def takeFailed (s : State) (why : TakeFor) (reason : Nat) : State :=
  let s1 := postDev (s.modPair (fun p => { p with take := none })) 0x0508 8 (leBytes 1 reason)
  match why with
  | .swap => changeRole (queueFrame (s1.modPair (fun p => { p with trigger := none })) (.abort (BitVec.ofNat 8 (reason + 1)))) .standby 1
  | .takeover => s1
  | _ =>
    let s2 := changeRole (s1.modPair (fun p => { p with retake := if reason = 1 then some why else none })) .wait 0
    if s2.sys.phase = .negotiating then completeStart s2 false else s2

/-- CLAIM_TAKE: a take that is due is made (R329-R331). -/
def execClaimTake (s : State) : Out :=
  .next (
    match s.pair.take with
    | none => s
    | some why =>
      if s.pair.high.toNat = 0x7FFFFFFF then takeFailed s why 2
      else
        let epoch := s.pair.high.toNat + 1
        match firmwareCommit s sysEpoch (leBytes 4 epoch) with
        | (s1, true) => taken s1 why epoch
        | (s1, false) => takeFailed s1 why 1)

/-- A take falls due. -/
def dueTake (s : State) (why : TakeFor) : State := s.modPair (fun p => { p with take := some why })

/-! ### Takeover (R351, R558) -/

/-- The claim wire allows a takeover on link loss: it is lost, or its frames show SILENT or no claim; a wire lost for 1 s with the
partner present declines it, until it has been valid for 1 s (R558).
DEDUCED, log entry 85. -/
def wireAllows (s : State) : Bool :=
  !s.pair.cwLong && (!s.pair.cwOk || s.pair.cwSilent || s.pair.cwClaim == 0)

/-- A takeover begins (R351): HANDTIME is measured from here. -/
def beginTakeover (s : State) : State := dueTake (s.modPair (fun p => { p with trigger := some s.seq.ut })) .takeover

/-- A standby that is MIRRORED. -/
def mirroredStandby (s : State) : Bool := s.pair.role == .standby && s.pair.mirror == .mirrored && s.pair.take.isNone

/-- The standby's answer to the loss of its partner on the link (R351): a takeover, or mirror-lag while the wire shows a live claim.
DEDUCED, log entries 82, 85. -/
def partnerLostStandby (s : State) : State :=
  if mirroredStandby s && wireAllows s then beginTakeover s
  else if s.pair.role = .standby ∧ s.pair.cwOk then enterLag s 2
  else s

/-- The claim wire changes while the partner is lost on the link (R351).
DEDUCED, log entry 85. -/
def wireChanged (s : State) : State :=
  if !s.pair.present && mirroredStandby s && wireAllows s then beginTakeover s else s

/-! ### Becoming standby (R337, R338, R348) -/

/-- STANDBY by negotiation at a start (R337): the unit time comes with the next HEARTBEAT (R342). -/
def negotiatedStandby (s : State) : State :=
  let s1 := changeRole (s.modPair (fun p => { p with utDue := some false, mirror := .none, take := none, retake := none })) .standby 0
  standTasks (completeStart s1 false)

/-- The open cycles of every task undone as an assay rollback undoes them, with nothing left to release (R338, R293). -/
def undoCycles (s : State) : State :=
  let s1 := catchUpB { s with laneA := undoLane s .a, laneB := undoLane s .b } []
  let s2 := allTasks.foldl (fun acc t =>
    let acc1 := clearContext (clearContext acc .a t) .b t
    if (acc1.tram.ch[t]).busy && taskOwned acc1 t then endTransfer acc1 t 0x45 (acc1.tram.ch[t]).k else acc1) s1
  { allTasks.foldl tallyReset s2 with
    laneA := { s2.laneA with cycles := Vector.replicate 16 none }
    laneB := { s2.laneB with cycles := Vector.replicate 16 none, count := s2.laneA.count }
    seq := { s2.seq with delivery := [] }
    asy := { s2.asy with pend := [], effects := [], exc := none, rollback := none, reopened := [], recovery := false } }

/-- Demotion (R338): the lower of two claims stops; the part becomes STANDBY once its field die is RELEASED. -/
def demote (s : State) : State :=
  let s1 := standTasks ((undoCycles s).modPair (fun p => { p with
    demoting := true, withdrawing := true, utDue := some true, mirror := .none, resyncLeft := none, take := none, retake := none
    trigger := none }))
  -- a W record that the undo had to read is uncorrectable (R268)
  match undoFails s with
  | some t => unitFault s1 4 t.val 0x08
  | none => s1

/-- The end of a demotion, when the field die reports RELEASED. -/
def endDemotion (s : State) : State :=
  changeRole (s.modPair (fun p => { p with demoting := false, swapLeft := none })) .standby 0

/-! ### Role swaps (R346-R350) -/

/-- Queued edits that are not applied when HAND_OUT is entered are discarded; one event records their number (R345). -/
def discardEdits (s : State) : State :=
  let n := editWord s 2
  if n = 0 then s
  else postDev (editPut s [(0, editWord s 1), (2, 0)]) 0x0305 4 (leBytes 2 n)

/-- The first condition of R347 that fails, 0 where all hold. -/
def swapRefusal (s : State) : Nat :=
  if ¬ (s.pair.role = .active ∨ s.pair.role = .standby) then 20
  else if s.pair.role = .standby then 0
  else if ¬ (s.pair.present ∧ s.pair.prole = .standby ∧ s.pair.pmirror = 2) then 16
  else if s.asy.recovery ∨ s.pair.pflags.testBit 1 then 17
  else if ¬ (s.pair.cwOk ∧ s.pair.pflags.testBit 3) then 18
  else if s.pair.resyncLeft.isSome then 19
  else 0

/-- A swap is triggered (R346, R347): refused with its reason, forwarded by a standby, or begun by HAND_OUT. -/
def triggerSwap (s : State) (origin : Nat) : State :=
  let why := swapRefusal s
  if why ≠ 0 then postSwapRefused s why
  else if s.pair.role = .standby then queueFrame s (.swapReq (BitVec.ofNat 8 origin))
  else changeRole (discardEdits (s.modPair (fun p => { p with trigger := some s.seq.ut, handSent := false }))) .handOut 1

/-- A periodic swap: one that is refused, or aborted, is retried until a swap succeeds (R347).
DEDUCED, log entry 107. -/
def periodicSwap (s : State) : State := triggerSwap (s.modPair (fun p => { p with swapRetryDue := true })) 1

/-- SWAP_TIMER: SWAP_H hours have been counted as ACTIVE with the partner STANDBY and MIRRORED (R346). -/
def execSwapTimer (s : State) : Out :=
  .next (if swapCounts s ∧ s.pair.swapLeft = some 0 ∧ ¬ s.pair.swapRetryDue then periodicSwap s else s)

/-- SWAP_RETRY_TIMER: SWAP_RETRY seconds after a periodic swap that was refused (R347). -/
def execSwapRetryTimer (s : State) : Out := .next (if s.pair.swapRetryDue ∧ s.pair.role = .active then periodicSwap s else s)

/-- PAIR_CMD_SWAP (R346, R355). -/
def execPairCmdSwap (p : Bool) (s : State) : Out := .next (gatedWrite s 0x100B p (triggerSwap · 1))

/-- PAIR_CMD_PARTNER_RESET (R354, R355). -/
def execPairCmdPartnerReset (p : Bool) (s : State) : Out := .next (gatedWrite s 0x100B p (queueFrame · .resetReq))

/-- Every open cycle has closed and its release has left (R348). -/
def handReady (s : State) : Bool :=
  allTasks.all (fun t => (s.laneA.cycles[t]).isNone && (s.laneB.cycles[t]).isNone) && s.asy.pend.isEmpty

/-- HAND_SEND: the hand token follows every queued DELTA (R348). -/
def execHandSend (s : State) : Out :=
  .next (
    if s.pair.role = .handOut ∧ ¬ s.pair.handSent ∧ handReady s then
      (queueFrame s (.hand (ownToken s))).modPair (fun p => { p with handSent := true })
    else s)

/-- A swap has been aborted at the part that hands out: it goes on as ACTIVE, and held starts take place at the first tick (R349,
R350).
DEDUCED, log entry 107. -/
def endSwap (s : State) (reason : Nat) : State :=
  changeRole (postSwapRefused (s.modPair (fun p => { p with handSent := false, trigger := none })) reason) .active 1

/-- The part that hands out aborts the swap: ABORT goes to the partner (R349, R350).
DEDUCED, log entry 84. -/
def abortSwap (s : State) (reason : Nat) : State := queueFrame (endSwap s reason) (.abort (BitVec.ofNat 8 reason))

/-- CONFIRM_TIMEOUT: 2 ms after HAND without a confirmation (R349). -/
def execConfirmTimeout (s : State) : Out :=
  .next (if s.pair.role = .handOut ∧ s.pair.handSent then abortSwap s 5 else s)

/-- The swap is confirmed: the old active part is STANDBY and MIRRORED, and keeps its claim until its field die is RELEASED (R348); the unit time
comes with the next HEARTBEAT (R342). HANDTIME runs to the first cycle start, which takes place at the other part: free.
DEDUCED, log entry 107. -/
def confirmSwap (s0 : State) : State :=
  let (s, n) := s0.takeFree
  let time := (Config.freeCode n).toNat
  let s1 := takeTasks s (allTasks.map (ownTrailer s))
  standTasks (changeRole (s1.modPair (fun p => { p with
    handSent := false, trigger := none, handTime := time, mirror := .mirrored, withdrawing := true, swaps := sat16 p.swaps 1
    swapLeft := none, swapRetryDue := false, utDue := some false, rxDelta := [], rxDeltaOk := true })) .standby 1)

/-! ### Timers of the link (R326, R327, R336, R337) -/

/-- HEARTBEAT_TIMER: a HEARTBEAT every 250 µs follows the frame in progress, before every frame that waits (R326). -/
def execHeartbeatTimer (s : State) : Out :=
  .next (if linkUp s then s.modPair (fun p => { p with txQueue := .heartbeat :: p.txQueue }) else s)

/-- The part sends HELLO frames: during negotiation, in WAIT, FAULTED and ALONE, as ACTIVE without a standby, to a partner in negotiation,
and while its partner is lost (R336-R338, R327, R353).
DEDUCED, log entry 81. -/
def sendsHello (s : State) : Bool :=
  s.sys.phase == .negotiating || s.pair.role == .wait || s.pair.role == .alone || s.pair.role == .faulted || !s.pair.present ||
    s.pair.prole == .negotiate || (s.pair.role == .active && s.pair.prole != .standby)

/-- HELLO_TIMER (R336, R337). -/
def execHelloTimer (s : State) : Out := .next (if sendsHello s then queueFrame s .hello else s)

/-- HEARTBEAT_MISSED: 250 µs without a valid HEARTBEAT; at 1,000 µs the partner is lost on the link (R327, R350, R351).
DEDUCED, log entry 84. -/
def execHeartbeatMissed (s : State) : Out :=
  .next (inOneClock s (
    if !linkUp s then s
    else
      let n := s.pair.missing + 1
      let s1 := s.modPair (fun p => { p with missing := n, missed := sat16 p.missed 1 })
      if ¬ (4 ≤ n ∧ (s.pair.present ∨ (s.pair.role = .standby ∧ n = 4))) then s1
      else
        let s2 := linkDetected (postDev (notifySeam (s1.modPair (fun p => { p with present := false })) 11) 0x0501 8 (leBytes 2 n))
        if s2.pair.role = .handOut ∧ ¬ s2.pair.handSent then abortSwap s2 6 else partnerLostStandby s2))

/-- PAIR_WAIT_EXPIRY: the pair wait of 120 ms ends without a valid HELLO (R337).
DEDUCED, log entry 81. -/
def execPairWaitExpiry (s : State) : Out :=
  .next (if s.sys.phase = .negotiating ∧ linkUp s ∧ s.pair.role = .negotiate ∧ s.pair.take.isNone then dueTake s .alone else s)

/-! ### Sending (R322-R324, R344) -/

/-- The payload of a HELLO (R324, R336). -/
def helloPayload (s : State) (turn : W32) : HelloFrame :=
  let c := s.cht.charter
  let pair := c.bind (fun x => x.pair)
  { pairId := match pair with | some p => p.pairId | none => 0
    unit := BitVec.ofNat 8 (unitBit s)
    role := BitVec.ofNat 8 s.pair.role.code
    generation := BitVec.ofNat 16 (generation s)
    lastClaim := s.pair.lastClaim
    high := s.pair.high.setWidth 32
    echo := s.pair.lastHello
    turn := if s.pair.lastHello = 0 then 0 else turn
    pairHash := match c with | some x => x.head.pairHash | none => []
    progHash := match c.bind (fun x => x.programs.head?) with | some p => p.hash | none => [] }

/-- The payload of a HEARTBEAT (R324, R326). -/
def heartbeatPayload (s : State) : HeartbeatFrame where
  claim := s.pair.claim
  role := BitVec.ofNat 8 s.pair.role.code
  mirror := match s.pair.mirror with | .none => 0 | .resync => 1 | .mirrored => 2 | .lag => 3
  fault := s.pair.role == .faulted
  recovery := s.asy.recovery
  mirrored := s.pair.mirror == .mirrored
  cwOk := s.pair.cwOk
  utime := s.seq.ut
  dseq := s.pair.dseq
  high := s.pair.high.setWidth 32

/-- Queue bytes that a frame gives back when it is sent (R343). -/
def frameBytes : TxFrame → Nat
  | .delta _ recs trailer => 8 * recs.length + (if trailer.isSome then 32 else 0)
  | _ => 0

/-! ### Frames as bytes (R322-R324, R340, R344, R348) -/

/-- TYPE of a frame (R323). -/
def TxFrame.type : TxFrame → Nat
  | .hello => 0x01
  | .heartbeat => 0x02
  | .delta .. => 0x03
  | .resync .. => 0x04
  | .lag _ => 0x05
  | .hand _ => 0x06
  | .confirm .. => 0x07
  | .abort _ => 0x08
  | .fault .. => 0x09
  | .resetReq => 0x0A
  | .swapReq _ => 0x0B

/-- FLAGS of a frame: bit 0 LAST of a delta (R322). -/
def TxFrame.flags : TxFrame → Nat
  | .delta last _ _ => bit last
  | _ => 0

/-- A delta record: address and value (R340). -/
def deltaRecordBytes (p : Nat × W36) : List Byte := leBytes 8 (p.1 % 2 ^ 22 + 2 ^ 22 * p.2.toNat)

/-- A commit trailer (R340). -/
def trailerBytes (tr : Trailer) : List Byte :=
  leBytes 1 tr.task.toNat ++ leBytes 1 (bit tr.overrun + 2 * bit tr.stopped) ++ leBytes 1 tr.consecutive.toNat ++ leBytes 1 0 ++
    leBytes 4 tr.cycle.toNat ++ leBytes 9 tr.close.toNat ++ leBytes 9 tr.next.toNat ++ leBytes 4 tr.records.toNat ++ leBytes 2 0

/-- The hand token: its head, the task records and the egress sequence counters (R324, R348). -/
def handBytes (tok : HandToken) : List Byte :=
  padTo 32 (padTo 12 (leBytes 9 tok.utime.toNat) ++ leBytes 4 tok.high.toNat ++ leBytes 4 tok.dseq.toNat) ++
    tok.tasks.flatMap trailerBytes ++ tok.seqs.flatMap (fun q => leBytes 2 q.toNat)

/-- A HELLO's payload (R324). -/
def helloBytes (f : HelloFrame) : List Byte :=
  leBytes 4 f.pairId.toNat ++ leBytes 1 f.unit.toNat ++ leBytes 1 f.role.toNat ++ leBytes 2 f.generation.toNat ++
    leBytes 4 f.lastClaim.toNat ++ leBytes 4 f.high.toNat ++ leBytes 4 f.echo.toNat ++ leBytes 4 f.turn.toNat ++
    padTo 32 f.pairHash ++ padTo 64 f.progHash

/-- A HEARTBEAT's payload (R324). -/
def heartbeatBytes (f : HeartbeatFrame) : List Byte :=
  padTo 48 (padTo 20 (leBytes 4 f.claim.toNat ++ leBytes 1 f.role.toNat ++ leBytes 1 f.mirror.toNat ++
    leBytes 1 (bit f.fault + 2 * bit f.recovery + 4 * bit f.mirrored + 8 * bit f.cwOk) ++ leBytes 1 0 ++ leBytes 9 f.utime.toNat) ++
    leBytes 4 f.dseq.toNat ++ leBytes 4 f.high.toNat)

/-- The payload of a frame (R324). -/
def SentFrame.payload (f : SentFrame) : List Byte :=
  match f.frame with
  | .hello => (f.hello.map helloBytes).getD []
  | .heartbeat => (f.heartbeat.map heartbeatBytes).getD []
  | .delta _ recs trailer => recs.flatMap deltaRecordBytes ++ (trailer.map trailerBytes).getD []
  | .resync start recs => leBytes 4 start.toNat ++ recs.flatMap (fun w => deltaRecordBytes (0, w))
  | .lag first => leBytes 4 first.toNat
  | .hand tok => handBytes tok
  | .confirm claim dseq => leBytes 4 claim.toNat ++ leBytes 4 dseq.toNat
  | .abort reason => leBytes 4 reason.toNat
  | .fault cls task code => leBytes 1 cls.toNat ++ leBytes 1 task.toNat ++ leBytes 2 code.toNat
  | .resetReq => leBytes 4 0x6A52
  | .swapReq origin => leBytes 4 origin.toNat

/-- A frame between K27.7 and K29.7: TYPE, FLAGS, LEN, SEQ, the payload and the CRC over all of them (R322). -/
def SentFrame.encode (f : SentFrame) : List Byte :=
  let body := leBytes 1 f.frame.type ++ leBytes 1 f.frame.flags ++ leBytes 2 f.payload.length ++ leBytes 4 f.seq.toNat ++ f.payload
  body ++ leBytes 4 (crc32c body).toNat

/-- TCHIAS_FRAME_SEND: the next queued frame is sent, in the order in which its content arose (R322, R323).
DESIGN CHOICE, log entry 83. -/
def execTchiasFrameSend (s : State) : Out :=
  .next (
    match s.pair.txQueue with
    | [] => s
    | f :: rest =>
      let seq := s.pair.txSeq
      let free := s.takeFree
      let s0 := match f with
        | .hello => free.1
        | _ => s
      let frame := match f with
        | .hand tok => .hand { tok with utime := s.seq.ut, high := s.pair.high.setWidth 32, dseq := s.pair.dseq }
        | x => x
      let sent : SentFrame := {
        seq := seq, frame := frame
        hello := match f with | .hello => some (helloPayload s (Config.freeTurn free.2)) | _ => none
        heartbeat := match f with | .heartbeat => some (heartbeatPayload s) | _ => none
        bytes := [] }
      s0.modPair (fun p => { p with
        txQueue := rest, txSeq := seq + 1, txLast := some { sent with bytes := sent.encode }, queueBytes := p.queueBytes - frameBytes f
        dseq := match f with | .delta _ _ _ => seq | _ => p.dseq }))

/-- The first addresses of a list that follow each other, at most `n`. -/
def addressRun : Nat → List Nat → List Nat
  | 0, _ => []
  | _, [] => []
  | _ + 1, [a] => [a]
  | n + 1, a :: b :: r => if b = a + 1 then a :: addressRun n (b :: r) else [a]

/-- RESYNC_FRAME_SEND: the next words of a resync, read from Lane A at a commit boundary; after the last of them the state block of
R344 follows. -/
def execResyncFrameSend (s : State) : Out :=
  .next (
    match s.pair.resyncLeft with
    | some (a :: rest) =>
      if s.pair.role = .active then
        let run := addressRun 255 (a :: rest)
        let left := (a :: rest).drop run.length
        let s1 := queueFrame s (.resync (BitVec.ofNat 32 a) (run.map (s.laneA.store.committed ·)))
        let s2 := s1.modPair (fun p => { p with resyncSent := p.resyncSent + run.length })
        if left.isEmpty then (queueFrame s2 (.hand (ownToken s2))).modPair (fun p => { p with resyncLeft := none })
        else s2.modPair (fun p => { p with resyncLeft := some left })
      else s
    | some [] => if s.pair.role = .active then (queueFrame s (.hand (ownToken s))).modPair (fun p => { p with resyncLeft := none }) else s
    | none => s)

/-! ### The claim wire at the logic die (R332, R558) -/

/-- The claim wire is lost (R332, R334): the event, and a unit fault while a recovery lasts (R295). -/
def wireLost (s : State) : State :=
  inOneClock s (
    if s.pair.cwOk then
      wireChanged (detected (postDev (notifySeam (s.modPair (fun p => { p with cwOk := false })) 11) 0x0507 8 []) 7)
    else s)

/-- CLAIM_WIRE_LONG_LOSS: the wire has been lost for 1 s while the partner is present; takeover on link loss is declined (R558).
DEDUCED, log entry 12. -/
def execClaimWireLongLoss (s : State) : Out :=
  .next (
    if ¬ s.pair.cwOk ∧ s.pair.present ∧ s.pair.role = .standby ∧ ¬ s.pair.cwLong then
      postEvent (s.modPair (fun p => { p with cwLong := true })) (Config.unlistedCode 2).toNat 2 8 []
    else s)

/-- CLAIM_WIRE_LONG_VALID: the wire has been valid for 1 s (R558). -/
def execClaimWireLongValid (s : State) : Out :=
  .next (if s.pair.cwOk then s.modPair (fun p => { p with cwLong := false }) else s)

end Sys2Proof.Machine
end

