-- ==== Sys2Proof/Machine/PairRx.lean ====
section
/-! DEFINITION. What each frame received over the Tchias link does (R322-R354). -/

namespace Sys2Proof.Machine

open Sys2Proof

/-- A discarded frame is counted (R325), a detected fault (R553). -/
def discardFrame (s : State) : State := linkDetected (s.modPair (fun p => { p with linkErr := sat16 p.linkErr 1 }))

/-- A frame reaches a part whose link is powered (R320); it finds no receiver elsewhere. -/
def onLink (s : State) (f : State → State) : Out := .next (if linkUp s then f s else s)

/-- Frames are missing before a SEQ (R325). -/
def seqGap (s : State) (seq : W32) : Bool := match s.pair.rxSeq with | some r => seq != r + 1 | none => false

/-- Of the frames missing before a SEQ more were lost than the heartbeats that have been missed, so that one of them was no HEARTBEAT
(R325).
DEDUCED, log entry 107. -/
def lostOther (s : State) (seq : W32) : Bool :=
  match s.pair.rxSeq with | some r => decide (s.pair.missing < (seq - r - 1).toNat) | none => false

/-- The standby still follows the active part's state. -/
def following (s : State) : Bool :=
  match s.pair.mirror with
  | .mirrored => true
  | .resync => true
  | _ => false

/-- A frame's SEQ is taken. Where frames are missing before it and it, or one of them, belongs to the stream of DELTA, RESYNC and LAG
frames, a standby enters mirror-lag (R325); a gap is a detected fault (R553). -/
def takeSeq (s : State) (seq : W32) (stream : Bool) : State :=
  let s0 := s.modPair (fun p => { p with rxSeq := some seq })
  let s1 := if seqGap s seq then linkDetected s0 else s0
  if seqGap s seq && (stream || lostOther s seq) && s.pair.role == .standby then enterLag s1 2 else s1

/-- The sender's role, as its HELLO, HEARTBEAT and CONFIRM frames last showed it, may send the frames of an active part (R323, R325). -/
def fromActive (s : State) : Bool := s.pair.prole == .active || s.pair.prole == .handOut

/-- The sender is a standby (R323, R325). -/
def fromStandby (s : State) : Bool := s.pair.prole == .standby || s.pair.prole == .handIn

/-- A frame of an active part: discarded where the sender is none, and without effect at a part that is no standby (R323, R325). -/
def fromActiveTo (s : State) (seq : W32) (f : State → State) : Out :=
  onLink s (fun s => if !fromActive s then discardFrame s else if s.pair.role ≠ .standby then takeSeq s seq true else f s)

/-! ### HELLO (R336-R338) -/

/-- What makes the parts incompatible: bit 0 PAIR_ID, 1 GENERATION, 2 pair hash, 3 program HASH, 4 UNIT (R336, R529). -/
def helloDiffers (s : State) (f : HelloFrame) : Nat :=
  let own := helloPayload s 0
  bit (f.pairId != own.pairId) + 2 * bit (f.generation != own.generation) + 4 * bit (f.pairHash != own.pairHash) +
    8 * bit (f.progHash != own.progHash) + 16 * bit (f.unit == own.unit)

/-- The partner holds a claim by its role (R319, R337).
DEDUCED, log entry 81. -/
def holdsClaim (r : Role) : Bool :=
  match r with
  | .alone => true
  | .active => true
  | .handOut => true
  | _ => false

/-- An incompatible partner is seen (R337). -/
def noteIncompatible (s : State) (diff : Nat) : State :=
  postDev (s.modPair (fun p => { p with incompat := true })) 0x0502 8 (leBytes 1 diff)

/-- The link delay of the first HELLO exchange (R336). -/
def noteDelay (s : State) (f : HelloFrame) (roundTripNs : Nat) : State :=
  if f.echo ≠ 0 ∧ s.pair.delay = 0 then s.modPair (fun p => { p with delay := min 0xFFFF ((roundTripNs - f.turn.toNat) / 2) }) else s

/-- Negotiation at step 12 (R337).
DEDUCED, log entry 81. -/
def negotiate (s : State) (f : HelloFrame) (partner : Role) : State :=
  let diff := helloDiffers s f
  if diff ≠ 0 then completeStart (changeRole (noteIncompatible s diff) .wait 0) false
  else if holdsClaim partner then negotiatedStandby s
  else if partner = .negotiate then
    let mine := s.pair.lastClaim
    let takes := if mine = 0 ∧ f.lastClaim = 0 then unitBit s = 1 else f.lastClaim.toNat < mine.toNat
    if takes then dueTake s .active else negotiatedStandby s
  else dueTake s .active

/-- Negotiation after the part has taken its claim (R338). -/
def renegotiate (s : State) (f : HelloFrame) (partner : Role) : State :=
  let diff := helloDiffers s f
  if diff ≠ 0 then noteIncompatible s diff
  else if holdsClaim partner ∧ s.pair.claim.toNat < f.lastClaim.toNat then demote s
  else if s.pair.role = .alone then armSwap (changeRole s .active 0)
  else s

/-- HELLO: a HELLO arrives (R336-R338). -/
def execHello (seq : W32) (f : HelloFrame) (roundTripNs : Nat) (s : State) : Out :=
  onLink s (fun s =>
    match Role.ofCode f.role.toNat with
    | none => discardFrame s
    | some partner =>
      let s1 := noteDelay (takeSeq s seq false) f roundTripNs
      let s2 := seeClaim (seeEpoch s1 f.high.toNat) f.lastClaim
      let s3 := s2.modPair (fun p => { p with lastHello := seq, prole := partner })
      if s3.sys.phase = .negotiating ∧ s3.pair.role = .negotiate then (if s3.pair.take.isNone then negotiate s3 f partner else s3)
      else if s3.pair.role = .alone ∨ (s3.pair.role = .active ∧ ¬ s3.pair.demoting) then renegotiate s3 f partner
      else s3)

/-! ### HEARTBEAT (R326, R342, R349) -/

/-- The unit time of the active part as a heartbeat gives it: its time at SOF and the link delay (R342). -/
def partnerTime (s : State) (f : HeartbeatFrame) : W72 := f.utime + BitVec.ofNat 72 (s.pair.delay / 1000)

/-- How a standby's ticks are to change until its unit time is within 1 µs of the active part's (R342).
DESIGN CHOICE, log entry 83. -/
def slewTo (own active : W72) : Int :=
  let ahead := (own - active).toInt
  if 1 < ahead then 1 else if ahead < -1 then -1 else 0

/-- The unit time of a part that has become standby is set once, and then slewed (R342); the step of a demotion is recorded.
DEDUCED, log entry 12; DESIGN CHOICE, log entry 83. -/
def setUnitTime (s : State) (f : HeartbeatFrame) : State :=
  let new := partnerTime s f
  match s.pair.utDue with
  | none => if s.pair.role = .standby then s.modPair (fun p => { p with slew := slewTo s.seq.ut new }) else s
  | some demoted =>
    let s1 := { s.modPair (fun p => { p with utDue := none, slew := 0 }) with seq := { s.seq with ut := new } }
    if demoted then postEvent s1 (Config.unlistedCode 1).toNat 2 8 (leBytes 9 (new - s.seq.ut).toNat) else s1

/-- A frame lost before this heartbeat was a DELTA: the last one sent lies between the last frame received and this one (R325). -/
def lostDelta (s : State) (seq : W32) (f : HeartbeatFrame) : Bool :=
  match s.pair.rxSeq with
  | some r => decide ((f.dseq - r).toNat < (seq - r).toNat) && f.dseq != r
  | none => false

/-- The active part answers what its standby reports: a resync for one that has no mirror or lags (R337, R343, R344).
DEDUCED, log entry 82. -/
def serveStandby (s : State) : State :=
  if s.pair.role = .active ∧ ¬ s.pair.demoting ∧ s.pair.prole = .standby ∧ s.pair.resyncLeft.isNone then
    if s.pair.pmirror = 2 then s.modPair (fun p => { p with mirror := .mirrored })
    else if s.pair.pmirror = 1 then s
    else startResync s
  else s

/-- A higher claim of the partner counts as confirmation (R349). -/
def claimConfirms (s : State) (claim : W32) : State :=
  if s.pair.role = .handOut ∧ s.pair.handSent ∧ s.pair.claim.toNat < claim.toNat then confirmSwap s else s

/-- HEARTBEAT: a valid heartbeat arrives (R326). The unit time follows one of an active part alone (R342). -/
def execHeartbeat (seq : W32) (f : HeartbeatFrame) (s : State) : Out :=
  onLink s (fun s =>
    match Role.ofCode f.role.toNat with
    | none => discardFrame s
    | some partner =>
      let s3 := seeClaim (seeEpoch (takeSeq s seq (lostDelta s seq f)) f.high.toNat) f.claim
      let s4 := (if s3.pair.present then s3 else notifySeam s3 11).modPair (fun p => { p with
        present := true, missing := 0, pclaim := f.claim, prole := partner, pmirror := bitsOf f.mirror.toNat 1 0
        pflags := bit f.fault + 2 * bit f.recovery + 4 * bit f.mirrored + 8 * bit f.cwOk })
      claimConfirms (serveStandby (if holdsClaim partner then setUnitTime s4 f else s4)) f.claim)

/-! ### DELTA, RESYNC and LAG (R341, R343, R344) -/

/-- Words applied on a standby as one event in both lanes. -/
def mirrorWords (s : State) (ws : List (Nat × W36)) : State :=
  let (s1, stamp) := takeStamp s
  laneEvents .b stamp ws (laneEvents .a stamp ws s1)

/-- The LAST frame of a delta: the whole delta is checked and applied, or mirror-lag follows (R341). -/
def applyDelta (s : State) (seq : W32) (recs : List (Nat × W36)) (ok : Bool) (trailer : Option Trailer) : State :=
  match trailer with
  | none => enterLag s 3
  | some tr =>
    if ok && recs.length == tr.records.toNat then noteTrailer ((mirrorWords s recs).modPair (fun p => { p with dseq := seq })) tr
    else enterLag s 3

/-- DELTA: a frame of a delta arrives at the standby (R340, R341). -/
def execDelta (seq : W32) (last : Bool) (recs : List (Nat × W36)) (trailer : Option Trailer) (s : State) : Out :=
  fromActiveTo s seq (fun s =>
    let s1 := takeSeq s seq true
    if !following s1 then s1
    else
      let all := s1.pair.rxDelta ++ recs
      if last then applyDelta (s1.modPair (fun p => { p with rxDelta := [], rxDeltaOk := true })) seq all s1.pair.rxDeltaOk trailer
      else s1.modPair (fun p => { p with rxDelta := all }))

/-- The words that a standby still expects of a resync. -/
def resyncExpected (s : State) : List Nat := match s.pair.resyncLeft with | some l => l | none => []

/-- A resync begins, or begins again, at the standby with its first word. -/
def beginResyncRx (s : State) : State :=
  let ws := mirroredWords s
  s.modPair (fun p => { p with
    mirror := .resync, resyncLeft := some ws, resyncSent := 0, resyncTotal := ws.length, rxDelta := [], rxDeltaOk := true })

/-- RESYNC: words of a resync arrive and are applied as one event in stream order (R344). -/
def execResync (seq : W32) (start : W32) (recs : List W36) (s : State) : Out :=
  fromActiveTo s seq (fun s =>
    let s0 := takeSeq s seq true
    let s1 := if (mirroredWords s).head? == some start.toNat then beginResyncRx s0 else s0
    if s1.pair.mirror ≠ .resync then s1
    else if (resyncExpected s1).head? ≠ some start.toNat then enterLag s1 2
    else
      let words := (List.range recs.length).zipWith (fun i v => (start.toNat + i, v)) recs
      (mirrorWords s1 words).modPair (fun p => { p with
        resyncLeft := p.resyncLeft.map (fun l => l.drop recs.length), resyncSent := p.resyncSent + recs.length }))

/-- LAG: the active part has discarded a delta (R343). The frame names the first discarded delta; the resync that follows replaces every
word, so that nothing here depends on it. -/
def execLag (seq : W32) (_first : W32) (s : State) : Out :=
  fromActiveTo s seq (fun s => enterLag (s.modPair (fun p => { p with rxSeq := some seq })) 1)

/-! ### Swaps and takeovers (R348-R351) -/

/-- The state block that ends a resync: the standby is MIRRORED (R344). -/
def endResyncRx (s : State) (tok : HandToken) : State :=
  let sent := s.pair.resyncSent
  postDev ((takeTasks s tok.tasks).modPair (fun p => { p with mirror := .mirrored, resyncLeft := none, dseq := tok.dseq })) 0x0504 8
    (leBytes 4 sent)

/-- The check of a HAND at the standby: SEQ contiguous and every delta applied (R348). -/
def handChecks (s : State) (seq : W32) (tok : HandToken) : Bool :=
  s.pair.mirror == .mirrored && !seqGap s seq && tok.dseq == s.pair.dseq && s.pair.rxDelta.isEmpty

/-- HAND: the hand token, or the state block that ends a resync, arrives at the standby (R344, R348). HANDTIME counts from the trigger
of the swap, an instant at the other part.
DEDUCED, log entries 82, 107. -/
def execHand (seq : W32) (tok : HandToken) (s : State) : Out :=
  fromActiveTo s seq (fun s =>
    let s1 := takeSeq s seq false
    if s.pair.mirror = .resync then
      if s1.pair.mirror = .resync ∧ resyncExpected s1 = [] then endResyncRx s1 tok else enterLag s1 3
    else if handChecks s seq tok then
      let (s2, n) := s1.takeFree
      dueTake (changeRole (takeSeqs (takeTasks (s2.modPair (fun p => { p with trigger := some (Config.freeTrigger n) })) tok.tasks)
        tok.seqs) .handIn 1) .swap
    else queueFrame s1 (.abort 1))

/-- CONFIRM: the old active part is told of the new claim (R348). A valid one shows an epoch wherever it arrives (R329), and its sender,
a standby until its take, as the active part.
DEDUCED, log entry 107. -/
def execConfirm (seq : W32) (claim : W32) (dseq : W32) (s : State) : Out :=
  onLink s (fun s =>
    if !(fromStandby s || s.pair.prole == .active) then discardFrame s
    else
      let s1 := (seeClaim (takeSeq s seq false) claim).modPair (fun p => { p with prole := .active })
      -- DSEQ is the last DELTA that the new active part has applied, from which the mirror of this part goes on
      if s.pair.role = .handOut ∧ s.pair.handSent then confirmSwap (s1.modPair (fun p => { p with dseq := dseq })) else s1)

/-- ABORT: a swap under way is aborted, and the reason is recorded (R324, R349, R350).
DEDUCED, log entry 107. -/
def execAbort (seq : W32) (reason : Byte) (s : State) : Out :=
  onLink s (fun s =>
    let s1 := takeSeq s seq false
    if s.pair.role = .handOut then endSwap s1 reason.toNat
    else
      let s2 := postSwapRefused s1 reason.toNat
      if s.pair.role = .handIn then changeRole (s2.modPair (fun p => { p with take := none, trigger := none })) .standby 1 else s2)

/-- FAULT: the partner's unit fault; a MIRRORED standby takes over, and a swap under way is aborted (R323, R350, R351). The notice
carries CLASS, TASK and CODE, on which nothing here depends.
DEDUCED, log entry 84. -/
def execFault (seq : W32) (_cls : Byte) (_task : Byte) (_code : W16) (s : State) : Out :=
  onLink s (fun s =>
    let s1 := (takeSeq s seq false).modPair (fun p => { p with prole := .faulted })
    if s1.pair.role = .handOut then abortSwap s1 4
    else if mirroredStandby s1 then beginTakeover s1
    else s1)

/-- RESET_REQ: a part without a claim in STANDBY, WAIT or FAULTED resets with CAUSE 6; one that holds a claim ignores it (R354). -/
def execResetReq (seq : W32) (key : W16) (s : State) : Out :=
  onLink s (fun s =>
    if key ≠ 0x6A52 then discardFrame s
    else
      let s1 := takeSeq s seq false
      if s.pair.claim ≠ 0 then postDev s1 0x0509 8 []
      else if s.pair.role = .standby ∨ s.pair.role = .wait ∨ s.pair.role = .faulted then resetSource s1 6
      else s1)

/-- SWAP_REQ: a swap command forwarded by the standby (R346). A part that is not ACTIVE refuses it (R347); one that is itself a standby
has no swap to begin. -/
def execSwapReq (seq : W32) (origin : Byte) (s : State) : Out :=
  onLink s (fun s =>
    if !fromStandby s then discardFrame s
    else if s.pair.role = .standby then takeSeq s seq false
    else triggerSwap (takeSeq s seq false) origin.toNat)

/-- TCHIAS_FRAME_DISCARD: a frame with a code-group error, a bad CRC, a length out of range or a TYPE that is not valid (R325).
DESIGN CHOICE, log entry 97. -/
def execTchiasFrameDiscard (why : TchiasDiscard) (s : State) : Out :=
  onLink s (fun s => match why with
    | .codeGroup => discardFrame s
    | .crc => discardFrame s
    | .length => discardFrame s
    | .type => discardFrame s)

end Sys2Proof.Machine
end

