-- ==== Sys2Proof/Machine/Field.lean ====
section
/-! DEFINITION. The die-to-die link, the field die and its channels (R20-R23, R332, R333, R374-R395, R557). -/

namespace Sys2Proof.Machine

open Sys2Proof

def State.modChan (s : State) (i : Chan) (f : ChanSt → ChanSt) : State := s.modFd (fun d => { d with ch := vecModify d.ch i f })

/-! ### Stages and drivers (R333, R374) -/

/-- The stage that R333 gives; SAFE_REQ counts as a silent logic side (R390). -/
def stageOfClaims (own : W32) (quiet cwValid : Bool) (partner : W32) (partnerSilent : Bool) : Stage :=
  if own ≠ 0 ∧ ¬ quiet ∧ (¬ cwValid ∨ partner.toNat < own.toNat) then .drive
  else if cwValid ∧ own.toNat < partner.toNat ∧ ¬ partnerSilent then .released
  else .safe

/-- What R374 asks of a channel's driver before its thermal priority: on or off. -/
def driverWanted (configured : Bool) (st : Stage) (x : ChanSt) : Bool :=
  configured && decide (2 ≤ x.cfg.mode.toNat) &&
    match st with
    | .released => false
    | .safe => x.cfg.safeOn
    | .drive => if x.latched then x.cfg.safeOn else x.cmd

/-- A channel brought to what R374 gives now: a wanted state of off ends a thermal latch and its count (R386), and a pulse ends unjudged when
the stage leaves DRIVE (R385), where the end of a dark pulse is a switch-on (R381); the read-back comparison waits 200 µs after a pulse too (R384).
DEDUCED, log entry 89. -/
def settleChan (configured : Bool) (st : Stage) (now : Nat) (x : ChanSt) : ChanSt :=
  let want := driverWanted configured st x
  let latch := x.thermalLatch && want
  let drv := want && !x.thermal && !latch
  let cut := x.pulse.isSome && st != .drive
  { x with
    thermalLatch := latch
    shutdowns := if want then x.shutdowns else 0
    driver := drv
    changedAt := if drv = x.driver && !cut then x.changedAt else some now
    onAt := if drv && (!x.driver || (cut && x.pulse == some .dark)) then some now else x.onAt
    pulse := if cut then none else x.pulse
    missed := if cut then x.missed + 1 else x.missed }

/-- The stage is evaluated and every driver follows (R333, R374).
DEDUCED, log entry 47. -/
def settleField (d : FdState) : FdState :=
  let st := stageOfClaims d.claim (d.silent || d.safeReq) d.cwValid d.cwClaim d.cwSilent
  { d with stage := st, ch := d.ch.map (settleChan (d.configured && !d.loopback && !d.heldOff) st d.now) }

/-- FIELD_DIAG (R386, R529): the channel, the bit of FLD.CHn_DIAG and the measured value. A STATUS frame is due (R393), and while a
recovery lasts the fault is a unit fault (R295). -/
def postDiag (s : State) (i : Chan) (diag value : Nat) : State :=
  inOneClock s (
    detected (postDev (s.modFd (fun d => { d with statusDue := true })) 0x0601 9 (leBytes 1 i.val ++ leBytes 1 diag ++ leBytes 2 value)) 8)

/-- The channels whose count of missed slots has reached 10 raise PULSE_FAIL and are latched (R385, R386). The event carries the current
last measured.
DEDUCED, log entry 89. -/
def raiseMissed (before after : State) : State :=
  let hit := (List.finRange 32).filter (fun i => decide ((before.fd.ch[i]).missed < 10) && decide (10 ≤ (after.fd.ch[i]).missed))
  if hit.isEmpty then after
  else
    let s1 := hit.foldl (fun acc i =>
      postDiag (acc.modChan i (fun y => { y with pulseFail := true, latched := true })) i 8 (acc.fd.ch[i]).current.toNat) after
    s1.modFd settleField

/-- The field settles after a command that began at `before` (R333, R374, R385). -/
def settleFrom (before s : State) : State := raiseMissed before (s.modFd settleField)

def settle (s : State) : State := settleFrom s s

/-! ### The logic die's side (R22, R389, R390, R393) -/

/-- SAFE_REQ is called for (R299, R554). -/
def callsSafe (s : State) : Bool := s.pair.role == .faulted || (s.asy.unpaired && !s.asy.debugOut)

/-- D2D_HEARTBEAT_TIMER: 250 µs would pass without a frame (R22). -/
def execD2dHeartbeatTimer (s : State) : Out := .next (s.modFld (fun x => { x with hbDue := true }))

/-- D2D_FRAME_SEND: the waiting command frame, or else a heartbeat that is due, or else the CONFIG frame that an expert write calls for
(R22, R391, R393, R395). -/
def execD2dFrameSend (s : State) : Out :=
  .next (
    let content := fun (out stamp : W32) (release : Bool) => (⟨s.pair.claim, out, stamp, callsSafe s, release⟩ : CommandFrame)
    match s.fld.waiting with
    | some w =>
      (sendLogic s (.command (content w.out w.stamp (w.release || s.fld.releaseNext)))).modFld (fun x =>
        { x with waiting := none, releaseNext := false, hbDue := false })
    | none =>
      if s.fld.hbDue then (sendLogic s (.heartbeat (content s.fld.out s.fld.stamp false))).modFld (fun x => { x with hbDue := false })
      else if s.fld.configDue then
        (sendLogic s (.config (.expert (BitVec.ofNat 7 s.fld.pulsePer) (BitVec.ofNat 6 s.fld.openMa)))).modFld (fun x =>
          { x with configDue := false, hbDue := false })
      else s)

/-! ### Frames to the field die (R23, R382, R388, R389, R391) -/

/-- Acceptance by sequence number at the field die: none for a repeat, which is discarded and counted (R23). An accepted frame makes a
STATUS frame due (R22). Before any frame has been accepted, the first is accepted whatever its number, and counts none as skipped.
DESIGN CHOICE, log entry 106. -/
def fdAccept (s : State) (seq : W16) : Option State :=
  match s.fd.rxSeq with
  | none => some (s.modFd (fun d => { d with rxSeq := some seq, statusDue := true }))
  | some r =>
    if seq = r then none
    else some (s.modFd (fun d => { d with rxSeq := some seq, statusDue := true, discarded := sat16 d.discarded (seq - r - 1).toNat }))

/-- A frame that the field die discards. -/
def fdDiscard (s : State) : State := s.modFd (fun d => { d with discarded := sat16 d.discarded 1 })

/-- An accepted frame's effect, or the count of a repeat. -/
def fdFrame (s : State) (seq : W16) (f : State → State) : State := inOneClock s (match fdAccept s seq with | some s1 => f s1 | none => fdDiscard s)

/-- A commanded bit: a change during a pulse ends the pulse unjudged (R385).
DEDUCED, log entry 89. -/
def commandChan (now i : Nat) (out : W32) (x : ChanSt) : ChanSt :=
  let b := out.getLsbD i
  if b = x.cmd then x
  else if x.pulse.isSome then { x with cmd := b, pulse := none, missed := x.missed + 1, changedAt := some now }
  else { x with cmd := b }

/-- Claim, SAFE_REQ and output bits of an accepted COMMAND or HEARTBEAT frame (R382, R390). -/
def applyCommand (f : CommandFrame) (s : State) : State :=
  s.modFd (fun d => { d with
    claim := f.claim, safeReq := f.safeReq, ch := Vector.ofFn (fun i : Fin 32 => commandChan d.now i.val f.out d.ch[i]) })

/-- Channels released from their latch at a command frame (R385, R395).
DEDUCED, log entry 90. -/
def releaseLatches (s : State) : State :=
  let m := s.fld.latchRel
  let s1 := s.modFd (fun d => { d with
    ch := Vector.ofFn (fun i : Fin 32 => if m.getLsbD i.val then { d.ch[i] with latched := false, missed := 0 } else d.ch[i]) })
  s1.modFld (fun x => { x with latchRel := 0 })

/-- The field die becomes silent; after its first release that begins a silence episode, which is counted (R388).
DEDUCED, log entry 87. -/
def beginSilence (s : State) : State :=
  let s1 := if s.fd.released && !s.fd.silent then
      (s.modFld (fun x => { x with silentCnt := sat16 x.silentCnt 1 })).modFd (fun d => { d with silentSince := some d.now })
    else s
  settle (s1.modFd (fun d => { d with silent := true }))

/-- FIELD_COMMAND_FRAME: a COMMAND frame at the field die (R382, R389). -/
def execFieldCommandFrame (seq : W16) (f : CommandFrame) (s : State) : Out :=
  .next (fdFrame s seq (fun s1 =>
    let s2 := releaseLatches (applyCommand f s1)
    let ends := f.release && f.claim != 0
    let s3 := if ends then endSilence s2 else s2
    settleFrom s1 (s3.modFd (fun d => { d with silent := d.silent && !ends, released := d.released || ends }))))

/-- FIELD_HEARTBEAT_FRAME: RELEASE in it has no effect (R389). -/
def execFieldHeartbeatFrame (seq : W16) (f : CommandFrame) (s : State) : Out :=
  .next (fdFrame s seq (fun s1 => settleFrom s1 (applyCommand f s1)))

/-- FIELD_RESET_FRAME: the field die is silent at once (R388). It comes later than the sources that began the reset together (R88). -/
def execFieldResetFrame (seq : W16) (s : State) : Out := .next (fdFrame (endTogether s) seq beginSilence)

/-- FIELD_LOAD_FRAME: the last frame completes the firmware load: the field die is silent, every output OFF, until it is configured and
released (R96, R376, R388). -/
def execFieldLoadFrame (seq : W16) (last : Bool) (hashOk : Bool) (s : State) : Out :=
  .next (fdFrame s seq (fun s1 =>
    if last then
      let s2 := endSilence s1
      settle { s2 with
        fd := { s2.fd with
          loaded := hashOk, configured := false, silent := true, released := false, ch := Vector.replicate 32 ChanSt.init }
        fld := { s2.fld with fwOk := hashOk } }
    else s1))

/-- A channel of the field die as its FIELD record sets it. -/
def ChanSt.configure (x : ChanSt) (r : FieldRec) : ChanSt := { x with cfg := r }

/-- FIELD_CONFIG_FRAME: the FIELD records, LOGIC_SILENCE and the structure frames, or the expert settings (R391, R395). -/
def execFieldConfigFrame (seq : W16) (cfg : FieldConfig) (s : State) : Out :=
  .next (fdFrame s seq (fun s1 =>
    match cfg with
    | .records recs ms frames =>
      settle (s1.modFd (fun d => { d with
        configured := true, silenceMs := ms, frames := frames
        ch := Vector.ofFn (fun i : Fin 32 => (d.ch[i]).configure (recs.getD i.val FieldRec.init)) }))
    | .expert per ma => s1.modFd (fun d => { d with pulsePer := per.toNat, openMa := ma.toNat })))

/-- LOGIC_SILENCE_EXPIRY: the silence timer reaches LOGIC_SILENCE (R388), a detected fault of class 8 (R553). -/
def execLogicSilenceExpiry (s : State) : Out :=
  .next (inOneClock s (detected (beginSilence s) 8))

/-! ### STATUS frames (R379, R392, R557) -/

/-- A diagnostic flag of a channel is set. -/
def anyDiag (x : ChanSt) : Bool :=
  x.wireBreak || x.senseHigh || x.overload || x.overtemp || x.thermalLatch || x.openOn || x.openOff || x.mismatch || x.pulseFail

/-- One bit per channel. -/
def chanMask (d : FdState) (p : ChanSt → Bool) : W32 :=
  (List.finRange 32).foldl (fun (m : W32) i => if p d.ch[i] then m ||| (1#32 <<< i.val) else m) 0

/-- The payload of a STATUS frame (R392).
DESIGN CHOICE, log entry 106. -/
def statusPayload (d : FdState) : StatusPayload where
  inp := chanMask d (fun x => x.cfg.mode == 1 && x.filt)
  diag := chanMask d anyDiag
  rb := chanMask d (fun x => x.cfg.mode == 3 && x.rb)
  stage := BitVec.ofNat 2 d.stage.code
  silent := d.silent
  cwValid := d.cwValid
  latched := (List.finRange 32).any (fun i => (d.ch[i]).latched)
  vfLow := d.vfLow
  temp := d.temp
  vfield := d.vfield
  partnerClaim := d.cwClaim
  ackSeq := match d.rxSeq with | some q => q | none => 0
  discarded := BitVec.ofNat 16 (min 0xFFFF d.discarded)

/-- STATUS_FRAME_SEND: a STATUS frame with the latest values, for every accepted frame and every change that made it due, and while the
firmware runs (R22, R392, R393). -/
def execStatusFrameSend (s : State) : Out :=
  .next (
    if s.fd.loaded || s.fd.statusDue then
      s.modFd (fun d => { d with
        statusSent := some (d.txSeq, statusPayload d), statusBytes := d2dFrame 8 0 d.txSeq (statusBytes (statusPayload d))
        txSeq := d.txSeq + 1, statusDue := false })
    else s)

/-- The content that a logic frame carries, where it is a COMMAND or a HEARTBEAT. -/
def contentOf : LogicFrame → Option CommandFrame
  | .command c => some c
  | .heartbeat c => some c
  | .reset => none
  | .load _ => none
  | .config _ => none

/-- The claim and SAFE_REQ that the field die had accepted when it acknowledged a frame: none and no claim from its load on until a frame
brings them. No frame is found for a number that the logic die has not sent.
DEDUCED, log entry 86. -/
def ackedContent (l : List (W16 × LogicFrame)) (q : W16) : Option (W32 × Bool) :=
  (firstIdx (fun p => p.1 == q) l).map (fun i =>
    match (l.take (i + 1)).reverse.findSome? (fun p => contentOf p.2) with
    | some c => (c.claim, c.safeReq)
    | none => (0, false))

/-- The frames that a later STATUS frame can still acknowledge, or whose content it goes by.
DEDUCED, log entry 86. -/
def keepUnacked (l : List (W16 × LogicFrame)) (q : W16) : List (W16 × LogicFrame) :=
  match firstIdx (fun p => p.1 == q) l with
  | some i => l.drop (i - (firstIdx (fun p => (contentOf p.2).isSome) (l.take (i + 1)).reverse).getD 0)
  | none => l

/-- A STATUS frame reports a stage that R333 does not allow: judged against the claim that the field die holds by the frame it acknowledges
(R557).
DEDUCED, log entry 86. -/
def stageIllegal (s : State) (f : StatusPayload) : Bool :=
  if f.stage = 3 then true
  else match ackedContent s.fld.unacked f.ackSeq with
    | some (claim, safeReq) =>
      let drives := claim != 0 && !f.silent && !safeReq && (!f.cwValid || decide (f.partnerClaim.toNat < claim.toNat))
      match Stage.ofCode f.stage.toNat with
      | .drive => !drives
      | .released => !(f.cwValid && decide (claim.toNat < f.partnerClaim.toNat))
      | .safe => drives
    | none => false

/-- The part's claim is withdrawn once its field die reports RELEASED or SAFE, and a demotion ends at RELEASED (R333, R338). -/
def withdrawClaim (s : State) (st : Stage) : State :=
  let s1 := if s.pair.withdrawing ∧ st ≠ .drive then dueCommand (s.modPair (fun p => { p with claim := 0, withdrawing := false })) else s
  if s1.pair.demoting ∧ st = .released then endDemotion s1 else s1

/-- The FLD ports take a STATUS frame's values; a change is notified (R468), and frames that the field die has discarded since are a detected
fault (R553).
DEDUCED, log entry 86; DESIGN CHOICE, log entry 106. -/
def takeStatus (s : State) (f : StatusPayload) : State :=
  let s1 := s.modFld (fun x => { x with
    inp := f.inp, diag := f.diag, rb := f.rb, stage := f.stage.toNat, latched := f.latched, vfLow := f.vfLow, temp := f.temp
    vfield := f.vfield, link := true, errFd := f.discarded.toNat, unacked := keepUnacked x.unacked f.ackSeq })
  let sn := if s1.fld = s.fld then s1 else notifySeam s1 2
  let sd := if s.fld.errFd < f.discarded.toNat then detected sn 8 else sn
  let s2 := takeFieldBlocks sd f.inp
  let s3 := withdrawClaim s2 (Stage.ofCode f.stage.toNat)
  if stageIllegal s f then unitFault s3 8 0xFF 0x0301 else s3

/-- STATUS_FRAME: a STATUS frame at the logic die (R23, R392). -/
def execStatusFrame (seq : W16) (f : StatusPayload) (s : State) : Out :=
  .next (inOneClock s (
    match s.fld.rxSeq with
    | none => takeStatus (s.modFld (fun x => { x with rxSeq := some seq })) f
    | some r =>
      if seq = r then detected (s.modFld (fun x => { x with errRx := sat16 x.errRx 1 })) 8
      else
        let s1 := s.modFld (fun x => { x with rxSeq := some seq, errRx := sat16 x.errRx (seq - r - 1).toNat })
        takeStatus (if seq = r + 1 then s1 else detected s1 8) f))

/-- D2D_FRAME_DISCARD: a frame whose CRC fails, or a repeat, at either die (R23), a detected fault (R553); the field die's count reaches the
logic die with the next STATUS frame. -/
def execD2dFrameDiscard (dir : D2dDir) (_why : D2dDiscard) (s : State) : Out :=
  .next (match dir with
    | .toField => fdDiscard s
    | .toLogic => detected (s.modFld (fun x => { x with errRx := sat16 x.errRx 1 })) 8)

/-- FIELD_STATUS_TIMEOUT: no valid STATUS frame for 1 ms, counted from the last one, or from the field die's load (R557). Before its load the
field die sends none.
DEDUCED, log entry 86. -/
def execFieldStatusTimeout (s : State) : Out :=
  .next (inOneClock s (
    let s1 := s.modFld (fun x => { x with link := false })
    if s.fld.link ∨ s.fld.fwOk then unitFault s1 8 0xFF 0x0300 else s1))

/-! ### The claim wire (R332, R333) -/

/-- A claim wire frame (R332).
DESIGN CHOICE, log entry 97. -/
def wireFrame (claim : W32) (silent : Bool) (stage : Nat) : BitVec 48 :=
  let body : BitVec 40 := 9#4 ++ claim ++ BitVec.ofNat 4 (8 * bit silent + stage)
  body ++ crc8 (bitsMsb body)

/-- CLAIM_WIRE_FRAME_SEND: every 100 µs (R332). Under FIELDTEST the land has no such driver (R569).
DEDUCED, log entry 47. -/
def execClaimWireFrameSend (s : State) : Out :=
  .next (if s.fd.loopback then s else s.modFd (fun d => { d with cwSent := some (wireFrame d.claim d.silent d.stage.code) }))

/-- A frame with a right START and CRC. -/
def wireValid (bits : BitVec 48) : Bool :=
  bits.extractLsb' 44 4 == 9#4 && bits.extractLsb' 0 8 == crc8 (bitsMsb (bits.extractLsb' 8 40))

/-- CLAIM_WIRE_FRAME: a frame arrives; one with a wrong START or CRC is discarded (R332, R333, R349). Under FIELDTEST the land has no such
input stage (R569).
DEDUCED, log entry 47. -/
def execClaimWireFrame (bits : BitVec 48) (s : State) : Out :=
  .next (
    if !wireValid bits || s.fd.loopback then s
    else
      let claim := bits.extractLsb' 12 32
      let silent := bits.getLsbD 11
      let stage := (bits.extractLsb' 8 2).toNat
      let s1 := settle (s.modFd (fun d => { d with cwValid := true, cwClaim := claim, cwSilent := silent, cwStage := stage }))
      let s2 := (seeClaim s1 claim).modPair (fun p => { p with cwOk := true, cwClaim := claim, cwSilent := silent, cwStage := stage })
      let s3 := if s2.pair = s.pair then s2 else notifySeam s2 11
      claimConfirms (wireChanged s3) claim)

/-- CLAIM_WIRE_LOSS: 300 µs without a valid frame (R332). -/
def execClaimWireLoss (s : State) : Out := .next (wireLost (settle (s.modFd (fun d => { d with cwValid := false }))))

/-! ### Inputs (R376-R380) -/

/-- Samples over a channel's filter time, the first included (R376, R377).
DEDUCED, log entry 88. -/
def filterSamples (x : ChanSt) : Nat := 10 * x.cfg.filter.toNat + 1

/-- One sample of an input channel (R376-R378).
DEDUCED, log entry 88. -/
def sampleInput (x : ChanSt) (mv : Nat) : ChanSt :=
  let raw := if 2000 + 250 * x.cfg.on.toNat ≤ mv then true else if mv ≤ 2000 + 250 * x.cfg.off.toNat then false else x.raw
  let n := if raw = x.filt then 0 else x.filtCount + 1
  let filt := if filterSamples x ≤ n then raw else x.filt
  let judged := x.cfg.wireBreak && !filt
  let hold := filterSamples x + 100
  let low := if judged && decide (mv < 1500) then x.lowCount + 1 else 0
  let ok := if judged && decide (1500 ≤ mv) then x.okCount + 1 else 0
  let high := if judged && decide (12000 < mv) then x.highCount + 1 else 0
  { x with
    raw := raw, filt := filt, filtCount := if filt = raw then 0 else n, lowCount := low, okCount := ok, highCount := high
    wireBreak := !filt && (decide (hold ≤ low) || (x.wireBreak && decide (ok < hold)))
    senseHigh := x.senseHigh || high == hold
    current := BitVec.ofNat 16 (mv / 30) }

/-- The land of a MODE 3 channel as it reads (R383). -/
def sampleLand (x : ChanSt) (mv : Nat) : ChanSt := { x with rb := if 12000 ≤ mv then true else if mv ≤ 4000 then false else x.rb }

/-- One sample of one channel, with the diagnostics it raises.
DEDUCED, log entry 88. -/
def sampleChan (mv : List Nat) (s : State) (i : Chan) : State :=
  let x := s.fd.ch[i]
  let v := mv.getD i.val 0
  if x.cfg.mode = 1 then
    let y := sampleInput x v
    let s1 := s.modChan i (fun _ => y)
    let s2 := if y.wireBreak && !x.wireBreak then postDiag s1 i 0 y.current.toNat else s1
    if x.highCount + 1 = filterSamples x + 100 ∧ y.highCount = filterSamples x + 100 then postDiag s2 i 1 y.current.toNat else s2
  else if x.cfg.mode = 3 then s.modChan i (sampleLand · v)
  else s

/-- A STATUS frame is due where a filtered state, a diagnostic or VF_LOW has changed (R393). -/
def dueStatus (before after : State) : State :=
  let a := statusPayload before.fd
  let b := statusPayload after.fd
  if a.inp = b.inp ∧ a.diag = b.diag ∧ a.vfLow = b.vfLow then after else after.modFd (fun d => { d with statusDue := true })

/-- The load currents of the outputs as the field die measures them (R395). -/
def takeCurrents (ma : List W16) (d : FdState) : FdState :=
  { d with ch := Vector.ofFn (fun i : Fin 32 =>
      let x := d.ch[i]
      if 2 ≤ x.cfg.mode.toNat then { x with current := ma.getD i.val 0 } else x) }

/-- INPUT_SAMPLE: every 10 µs the field die samples its channels (R376) and the load currents.
DEDUCED, log entry 47; DESIGN CHOICE, log entry 91. -/
def execInputSample (x : FieldSample) (s : State) : Out :=
  .next (
    if s.fd.loaded ∧ s.fd.configured ∧ ¬ s.fd.loopback then
      dueStatus s ((List.finRange 32).foldl (sampleChan x.mv) (s.modFd (fun d => takeCurrents x.ma { d with now := d.now + 1 })))
    else s.modFd (fun d => { d with now := d.now + 1 }))

/-- VFIELD_SAMPLE: VF_LOW follows every sample of 1 ms, both ends included (R380); the die's temperature is measured with it (R392).
DEDUCED, log entry 88. -/
def execVfieldSample (x : SupplySample) (s : State) : Out :=
  .next (dueStatus s (s.modFd (fun d =>
    let below := if x.mv < 16000 then min 101 (d.vfBelow + 1) else 0
    let above := if 16500 < x.mv then min 101 (d.vfAbove + 1) else 0
    { d with
      temp := x.temp, vfield := BitVec.ofNat 16 (min 0xFFFF (x.mv / 10)), vfBelow := below, vfAbove := above
      vfLow := if below = 101 then true else if above = 101 then false else d.vfLow })))

/-! ### Outputs (R381-R387) -/

/-- The channel drives a load. -/
def isOutput (x : ChanSt) : Bool := decide (2 ≤ x.cfg.mode.toNat)

/-- Within `n` samples of an instant.
DESIGN CHOICE, log entry 91. -/
def since (now : Nat) (at_ : Option Nat) (n : Nat) : Bool := match at_ with | some t => decide (now < t + n) | none => false

/-- The settle window of 200 µs and the inrush window of 10 ms (R381, R383).
DESIGN CHOICE, log entry 91. -/
def inSettle (d : FdState) (x : ChanSt) : Bool := since d.now x.changedAt 20
def inInrush (d : FdState) (x : ChanSt) : Bool := since d.now x.onAt 1000

/-- The partner's claim-wire STAGE is DRIVE (R385). -/
def partnerDrives (d : FdState) : Bool := d.cwValid && d.cwStage == 1

/-- The land of a channel disagrees with its driver state (R383): a reading between the two levels agrees with neither. -/
def disagrees (x : ChanSt) (mv : Nat) : Bool := if x.driver then decide (mv < 12000) else decide (4000 < mv)

/-- READBACK_MISMATCH: the land has disagreed with the driver state for 50 µs (R383). Under FIELDTEST no diagnostic acts (R569).
DEDUCED, log entry 47. -/
def execReadbackMismatch (ch : Chan) (mv : Nat) (s : State) : Out :=
  .next (
    let x := s.fd.ch[ch]
    if x.cfg.mode = 3 ∧ ¬ s.fd.loopback ∧ disagrees x mv ∧ x.pulse.isNone ∧ ¬ x.pull ∧ ¬ inSettle s.fd x then
      postDiag (settle (s.modChan ch (fun y => { y with mismatch := true, latched := true }))) ch 7 mv
    else s)

/-- A slot is missed; the tenth in a row raises PULSE_FAIL (R385).
DEDUCED, log entry 89. -/
def missSlot (s : State) (ch : Chan) : State :=
  raiseMissed s (s.modChan ch (fun y => { y with missed := y.missed + 1 }))

/-- TEST_PULSE_SLOT: the pulse begins or is skipped (R384, R385). A period without a pulse has none that passed (R387), and under FIELDTEST
there are none (R569).
DEDUCED, log entry 47. -/
def execTestPulseSlot (ch : Chan) (s : State) : Out :=
  .next (
    let x := s.fd.ch[ch]
    let s0 := s.modChan ch (fun y => { y with pulsePassed := false })
    if ¬ (x.cfg.mode = 3 ∧ s.fd.stage = .drive) ∨ s.fd.loopback then s0
    else if x.latched ∨ x.thermalLatch then s0
    else if partnerDrives s.fd ∨ x.thermal ∨ inSettle s.fd x ∨ inInrush s.fd x then missSlot s0 ch
    else if x.driver then s0.modChan ch (fun y => { y with pulse := some .dark })
    else s0.modChan ch (fun y => { y with pulse := some .bright, onAt := some s.fd.now }))

/-- TEST_PULSE_END: the pulse is judged from the land at its end (R384); the end of a dark pulse is a switch-on (R381). -/
def execTestPulseEnd (ch : Chan) (mv : Nat) (s : State) : Out :=
  .next (
    let done := fun (bright passed : Bool) =>
      let s1 := s.modChan ch (fun y => { y with
        pulse := none, missed := 0, pulsePassed := bright && passed, changedAt := some s.fd.now
        onAt := if bright then y.onAt else some s.fd.now })
      if passed then s1
      else postDiag (settle (s1.modChan ch (fun y => { y with pulseFail := true, latched := true }))) ch 8 mv
    match (s.fd.ch[ch]).pulse with
    | some .dark => done false (decide (mv ≤ 4000))
    | some .bright => done true (decide (12000 ≤ mv))
    | none => s)

/-- PULL_TEST_START: 200 µA is sourced into an output that is off; in MODE 3 only after a bright pulse of the slot that passed (R387).
DEDUCED, log entry 47. -/
def execPullTestStart (ch : Chan) (s : State) : Out :=
  .next (
    let x := s.fd.ch[ch]
    if x.cfg.pullTest ∧ ¬ s.fd.loopback ∧ isOutput x ∧ ¬ x.driver ∧ ¬ partnerDrives s.fd ∧ (x.cfg.mode = 2 ∨ x.pulsePassed) then
      s.modChan ch (fun y => { y with pull := true })
    else s)

/-- PULL_TEST_END: it fails above 4.0 V; up to 2.0 V it passes, and between there is no verdict (R387). -/
def execPullTestEnd (ch : Chan) (mv : Nat) (s : State) : Out :=
  .next (
    if (s.fd.ch[ch]).pull then
      let s1 := s.modChan ch (fun y => { y with pull := false, pulsePassed := false })
      if 4000 < mv then postDiag (s1.modChan ch (fun y => { y with openOff := true })) ch 4 mv else s1
    else s)

/-- THERMAL_SHUTDOWN: a channel that drives, by command or in a bright pulse, switches off; the 16th with no driver-off state between latches it
(R381, R386). -/
def execThermalShutdown (ch : Chan) (ma : W16) (s : State) : Out :=
  .next (
    let x := s.fd.ch[ch]
    if isOutput x ∧ (x.driver ∨ x.pulse = some .bright) then
      let n := x.shutdowns + 1
      let s1 := s.modChan ch (fun y => { y with
        thermal := true, overtemp := true, shutdowns := n, thermalLatch := y.thermalLatch || decide (16 ≤ n), current := ma })
      let s2 := postDiag (settle s1) ch 5 ma.toNat
      if n = 16 then postDiag s2 ch 6 ma.toNat else s2
    else s)

/-- THERMAL_RESTART: below 150 °C (R381). -/
def execThermalRestart (ch : Chan) (s : State) : Out := .next (settle (s.modChan ch (fun y => { y with thermal := false })))

/-- OVERLOAD: the current limit has been active for 1 ms outside the inrush window (R386). -/
def execOverload (ch : Chan) (ma : W16) (s : State) : Out :=
  .next (
    let x := s.fd.ch[ch]
    if isOutput x ∧ x.driver ∧ ¬ inInrush s.fd x then
      postDiag (s.modChan ch (fun y => { y with overload := true, current := ma })) ch 2 ma.toNat
    else s)

/-- OPEN_ON: the load current has stayed below OPEN_MA for 10 ms with the driver on (R386). -/
def execOpenOn (ch : Chan) (ma : W16) (s : State) : Out :=
  .next (
    let x := s.fd.ch[ch]
    if isOutput x ∧ x.driver ∧ ¬ inInrush s.fd x ∧ ma.toNat < s.fd.openMa then
      postDiag (s.modChan ch (fun y => { y with openOn := true, current := ma })) ch 3 ma.toNat
    else s)

/-! ### Ports that act (R389, R395) -/

/-- A write of 0x7E10 to FLD.RELEASE, with the event that vendor firmware records (R389).
DEDUCED, log entry 90. -/
def fldReleaseEffect (s : State) : State := postDev (s.modFld (fun x => { x with releaseNext := true })) 0x0603 9 []

/-- Latched channels named by a write to FLD.LATCH are released at the next command frame (R395).
DEDUCED, log entry 90. -/
def fldLatchEffect (hi : Bool) (mask : W16) (s : State) : State :=
  let m : W32 := if hi then mask ++ 0#16 else mask.setWidth 32
  s.modFld (fun x => { x with latchRel := x.latchRel ||| (m &&& chanMask s.fd (fun c => c.latched)) })

/-- FLD_RELEASE. -/
def execFldRelease (p : Bool) (s : State) : Out := .next (gatedWrite s 0x1201 p fldReleaseEffect)

/-- FLD_LATCH_RELEASE. -/
def execFldLatchRelease (hi : Bool) (mask : W16) (p : Bool) (s : State) : Out :=
  .next (gatedWrite s (if hi then 0x120B else 0x120A) p (fldLatchEffect hi mask))

end Sys2Proof.Machine
end

