-- ==== Sys2Proof/Machine/Wdt.lean ====
section
/-! DEFINITION. The system watchdog (R311-R318): the window, the key, expiry, clock stops and the pre-warning. -/

namespace Sys2Proof.Machine

open Sys2Proof

def State.modWdt (s : State) (f : WdtState → WdtState) : State := { s with wdt := f s.wdt }

/-- A watchdog trip (R315): a unit fault, and a reset of CAUSE 4. The trip's own event follows once the recorder runs. -/
def wdtTrip (s : State) (trip : Nat) : State :=
  inOneClock s (
    let s1 := unitFault (s.modWdt (fun w => { w with trip := trip })) 13 0xFF (0x200 + trip)
    resetSource { s1 with sys := { s1.sys with tripPending := true } } 4)

/-- A key lands, judged against the count held just before its tick (R313). With the counting clock stopped it has no tick to land on and
is never judged (R314).
DESIGN CHOICE, log entry 38. -/
def wdtLand (s : State) (key : W16) : State :=
  if s.wdt.stopped then s
  else if !s.wdt.armed then s.modWdt (fun w => { w with last := 4 })
  else
    let s1 := s.modWdt (fun w => { w with land := w.count })
    if key ≠ 0xC3A5 then wdtTrip (s1.modWdt (fun w => { w with last := 3 })) 2
    else if s.wdt.count < wdtOpens s then wdtTrip (s1.modWdt (fun w => { w with last := 2 })) 1
    else s1.modWdt (fun w => { w with last := 1, count := 0, served := sat16 w.served 1 })

/-- WDT_KEY_LAND: a key lands `elapsed` ticks of the watchdog's clock after the last command that moved its count. -/
def execWdtKeyLand (key : W16) (elapsed : Nat) (s : State) : Out := .next (wdtLand (wdtCount s elapsed) key)

/-- WATCHDOG_EXPIRY: the count would pass from P - 1 and no key lands on that tick (R313, R315). -/
def execWatchdogExpiry (s : State) : Out :=
  .next (if s.wdt.armed && !s.wdt.stopped then wdtTrip (s.modWdt (fun w => { w with count := wdtPeriod s - 1 })) 3 else s)

/-- WATCHDOG_CLOCK_STOP: the counting or the watching clock shows no edge for 8 cycles of the other (R316). A key written once the counting
clock's edges have ended keeps its OUT open until that trip or the stuck-access timeout (R314).
DESIGN CHOICE, log entry 38. -/
def execWatchdogClockStop (silence : WdtSilence) (s : State) : Out :=
  let still := s.modWdt (fun w => { w with stopped := true })
  .next (
    match silence with
    | .countingEnds => still
    | .counting => if s.wdt.armed then wdtTrip still 4 else still
    | .watching => if s.wdt.armed then wdtTrip s 5 else s)

/-- Expert setting WDT.PREWARN and the count at which the warning rises (R317). -/
def prewarnCount (s : State) : Nat := max (wdtPeriod s - 2000 * s.wdt.preMs) (wdtOpens s)

/-- WATCHDOG_PREWARNING: the count reaches P - 2,000 × MS, or O if that is later (R317). -/
def execWatchdogPrewarning (s : State) : Out :=
  .next (if s.wdt.armed ∧ ¬ s.wdt.stopped ∧ s.wdt.preMs ≠ 0 then
    notifySeam (s.modWdt (fun w => { w with prewarn := true, count := max w.count (prewarnCount s) })) 0
  else s)

end Sys2Proof.Machine
end

