-- ==== Sys2Proof/Machine/PortRead.lean ====
section
/-! DEFINITION. What a read of each I/O port returns (R10, R11, R44 and the register tables of the blocks), the pending vectors of
R366, and the reads that change the part. -/

namespace Sys2Proof.Machine

open Sys2Proof

/-- Bits [15:0] and [31:16] of a number. -/
def lo16 (v : Nat) : W16 := BitVec.ofNat 16 v
def hi16 (v : Nat) : W16 := BitVec.ofNat 16 (v / 65536)

/-- One bit for each task, channel or mailbox, by its number. -/
def bitMask (n : Nat) (p : Nat → Bool) : W16 := fields ((List.range n).map (fun i => (i, bit (p i))))

/-! ### Pending vectors (R366) -/

/-- A controller raises its vector (R419 IEN); a disabled one raises none (R398). -/
def mbVector (m : MbState) : Bool :=
  m.phase != .disabled &&
  ((m.ien.getLsbD 0 && m.txDone != 0) || (m.ien.getLsbD 1 && m.rxCount != 0) || (m.ien.getLsbD 2 && m.rxOvr) ||
    (m.ien.getLsbD 3 && m.stateChanged) || (m.ien.getLsbD 4 && m.alone) || (m.ien.getLsbD 5 && m.found))

/-- A link or claim wire condition stands: the partner or its claim wire is lost while the link is powered. -/
def pairVector (s : State) : Bool :=
  let p := s.pair
  p.incompat || p.swapRefused || p.lagSeen || s.hf.noteRole || (linkUp s && (!p.present || !p.cwOk))

/-- The field die's conditions. -/
def fieldVector (s : State) : Bool :=
  let f := s.fld
  s.fd.silent || f.latched || f.vfLow || f.diag != 0 || (s.sys.state == .running && !f.link)

/-- Vector `v` is pending (R366). Faults are taken at once and never pend.
DESIGN CHOICE, log entry 31. -/
def vectorPending (s : State) (v : Nat) : Bool :=
  match v with
  | 4 => s.pil.pfw
  | 5 => s.pair.role == .faulted
  | 6 => s.wdt.prewarn
  | 7 => s.asy.misValid || s.hf.noteAssay
  | 8 => pairVector s
  | 9 => !s.hf.svcq.isEmpty
  | 10 => s.seq.tasks.toList.any (fun k => k.hfFlag != 0 || k.ovrWarn)
  | 11 => s.tly.dup != 0 || s.tly.miss != 0 || s.tly.seq != 0
  | 12 => s.tram.irq != 0
  | 13 => fieldVector s
  | 14 => s.host.pend != 0
  | 15 => mbVector s.mb[0]
  | 16 => mbVector s.mb[1]
  | 17 => mbVector s.mb[2]
  | 18 => mbVector s.mb[3]
  | 19 => s.xsp.err || s.hf.noteFlash
  | 20 => s.hf.noteCrypto
  | 21 => s.pil.refused || s.hf.notePillar
  | 22 => s.bkp.alarm || s.bkp.dateErr
  | 23 => s.evt.full || s.evt.summary
  | 24 => s.hlt.above != 0 || s.age.lifeLow || s.age.noMargin
  | 25 => s.clk.forced || s.clk.refBad || s.seam.stuck || s.seam.ovr
  | _ => decide (26 ≤ v) && s.hf.swi.getLsbD (v - 26)

/-! ### SYS, CLK, SEAM and CHT (R85, R110, R470, R471) -/

def sysPort (s : State) (off : Nat) : W16 :=
  let y := s.sys
  match off with
  | 0 => fields [(15, bit y.expertDenied), (14, bit y.retLost), (13, bit y.retOk), (0, y.state.code)]
  | 1 => fields [(8, y.why), (6, bit y.retFail), (5, bit y.nested), (4, bit y.held), (3, bit y.warm), (0, y.cause)]
  | 3 => fields [(15, bit y.fwFallback), (8, y.step), (0, y.code)]
  | 4 => y.tstart
  | 5 => lo16 (fusePartGen s)
  | _ => 0

/-- A task has work on a lane, or an undo or a rollback is in progress (R122, R458); a context operation is part of one step. -/
def laneHasWork (s : State) (l : LaneId) : Bool := (s.lane l).pick.isSome || s.asy.rollback.isSome || s.sys.phase == .entered

/-- An island has work (R458). A host or flash transfer is part of the command that carries it; what remains is a flash operation
in progress. -/
def islandHasWork (s : State) (i : Island) : Bool :=
  match i with
  | 0 => laneHasWork s .a
  | 1 => laneHasWork s .b
  | 3 => !s.asy.pend.isEmpty || !s.asy.effects.isEmpty || s.asy.exc.isSome || s.laneA.recq != 0 || s.laneB.recq != 0
  | 4 => linkUp s
  | 5 => !s.hf.waiting || (List.range 32).any (vectorPending s)
  | 6 => flashBusy s
  | 8 => canEnabled s
  | _ => true

/-- The islands that a pulse seam comes from; seams 0 and 1 come from WDT_RC and BACKUP (R468). -/
def seamSources (i : Fin 16) : List Island :=
  ([[], [], [7], [7], [7], [8], [8], [8], [8], [6], [6], [4], [3], [2], [9], [0, 1]] : List (List Island)).getD i.val []

/-- A seam cell of an island reports an access into or out of it (R27, R458, R459): a pulse seam on its way from the island, or into HEADFRAME,
where every one ends (R468), or a host access that waits at XSPI (R463). Another data seam's handshake is part of the step that makes the
access. -/
def seamOpen (s : State) (i : Island) : Bool :=
  (List.finRange 16).any (fun n => (s.seam.pulse[n]).busy && (i == 5 || (seamSources n).contains i)) || (i == 6 && !s.seam.held.isEmpty)

/-- An island has its clock running (R447, R458): its gate is not closed, or it has work; the PLL holds every island without a clock while it
is not locked.
DEDUCED, log entry 36. -/
def clockRuns (s : State) (i : Island) : Bool := s.clk.lock && (s.clk.gate[i] != .closed || islandHasWork s i || seamOpen s i)

def clkPort (s : State) (off : Nat) : W16 :=
  let k := s.clk
  match off with
  | 0 => fields [(15, bit k.lock), (14, bit (k.cur != k.target)), (13, bit k.forced), (12, bit k.divDenied), (11, bit k.refBad),
      (10, bit k.judging), (0, k.ref)]
  | 1 => bitMask 10 (fun i => clockRuns s (Fin.ofNat 10 i))
  | 2 => lo16 (k.xcount % 4096)
  | 3 => lo16 (min 0xFFFF k.windows)
  | 0x100 => lo16 k.rampStep
  | 0x101 => lo16 k.judgeWin
  | 0x102 => lo16 k.gateIdle
  | 0x103 => k.gateDis.setWidth 16
  | _ =>
    if 0x10 ≤ off ∧ off < 0x1A then
      fields [(8, k.target.toArray.getD (off - 0x10) 0), (0, k.cur.toArray.getD (off - 0x10) 0)]
    else if 0x110 ≤ off ∧ off < 0x11A then lo16 (k.target.toArray.getD (off - 0x110) 0)
    else 0

/-- The SEAM ports (R471): HELD while a host access waits for the stopped root (R463). -/
def seamPort (s : State) (off : Nat) : W16 :=
  let k := s.seam
  let q := k.pulse[Fin.ofNat 16 k.psel]
  match off with
  | 0 => fields [(15, bit k.stuck), (14, bit k.ovr), (13, bit (!k.held.isEmpty))]
  | 1 => fields [(8, k.stuckTarget), (0, k.stuckReq)]
  | 2 => lo16 k.stuckCnt
  | 3 => bitMask 16 (fun i => (k.pulse[Fin.ofNat 16 i]).ovr)
  | 4 => lo16 k.psel
  | 5 => fields [(15, bit q.pend), (14, bit q.ovr), (0, q.lost)]
  | 0x104 => lo16 k.timeout
  | _ => 0

def chtPort (s : State) (off : Nat) : W16 :=
  let c := s.cht
  let h := c.shown.map (·.head)
  let num := fun (f : CharterHead → Nat) => match h with | some x => f x | none => 0
  match off with
  | 0 => fields [(5, num (fun x => bit x.split)), (4, bit (match c.shown with | some x => x.pair.isNone | none => false)),
      (3, bit c.slotB), (2, bit c.latchOk), (1, bit c.refused), (0, bit c.charter.isSome)]
  | 1 => lo16 c.code
  | 2 => lo16 c.sect
  | 3 => lo16 c.offs.toNat
  | 4 => hi16 c.offs.toNat
  | 5 => lo16 (num (·.serial.toNat))
  | 6 => hi16 (num (·.serial.toNat))
  | 7 => lo16 (num (·.generation))
  | 8 => lo16 (num (·.keyix))
  | _ => if 0x10 ≤ off ∧ off < 0x30 then lo16 (num (fun x => leAt x.hash (2 * (off - 0x10)) 2)) else 0

/-! ### LANE, ASY, TLY and WDT (R112, R270, R300, R310, R318) -/

/-- State code of a task (R112). A cycle that stands at a fence, at a provisional exception, at its program end or before a full
re-execution waits until its snapshot instant.
DESIGN CHOICE, log entry 37. -/
def taskState (s : State) (t : Task) : Nat :=
  match (s.task t).phase with
  | .stopped => 0
  | .ready _ => 1
  | .skip _ => 6
  | .faulted => 7
  | .opened =>
    match s.cycle (homeLane s t) t with
    | none => 2
    | some c => if c.tkStamp.isSome then 4 else if c.hold == .run then 2 else 3

/-- A task is pre-empted: its context lies in its save area.
DESIGN CHOICE, log entry 37. -/
def taskPreempted (s : State) (t : Task) : Bool :=
  match s.cycle (homeLane s t) t with
  | some c => c.saved
  | none => false

/-- LANE.RUN's five bits for a lane: idle where no task has work (R122).
DESIGN CHOICE, log entry 133. -/
def laneRun (x : Lane) : Nat :=
  if x.pick.isNone then 16 else match x.cur with | some t => t.val | none => 16

def lanePort (s : State) (off : Nat) : W16 :=
  let q := s.seq
  if off < 4 then
    fields ((List.range 4).flatMap (fun m =>
      let t : Task := Fin.ofNat 16 (4 * off + m)
      [(4 * m, taskState s t), (4 * m + 3, bit (taskPreempted s t))]))
  else if off < 0x10 then
    match off with
    | 4 => fields [(8, laneRun s.laneB), (0, laneRun s.laneA)]
    | 5 => bitMask 16 (fun i => (s.task (Fin.ofNat 16 i)).ovrWarn)
    | 6 => bitMask 16 (fun i => (s.task (Fin.ofNat 16 i)).hfFlag != 0)
    | 7 => fields [(1, bit q.parB), (0, bit q.parA)]
    | 8 => fields [(15, bit q.fltValid), (14, bit q.fltDouble), (12, q.fltPass), (8, q.fltTask), (0, q.fltCode.toNat)]
    | 9 => fields [(1, bit q.fltOneLane), (0, bit q.fltLane)]
    | 0xA => lo16 q.fltPc
    | 0xB => hi16 q.fltPc
    | 0xC => lo16 q.fltElem
    | 0xD => hi16 q.fltElem
    | 0xE => lo16 q.fltCyc.toNat
    | _ => hi16 q.fltCyc.toNat
  else if off < 0x90 then
    let k := s.task (Fin.ofNat 16 ((off - 0x10) / 8))
    match (off - 0x10) % 8 with
    | 0 => lo16 k.number.toNat
    | 1 => hi16 k.number.toNat
    | 2 => fields [(8, k.fbCode), (0, min 255 k.consec)]
    | 3 => lo16 k.fbCount
    | 4 => k.hfFlag
    | _ => 0
  else if 0x100 ≤ off ∧ off < 0x120 then
    let k := s.task (Fin.ofNat 16 ((off - 0x100) / 2))
    if off % 2 = 0 then lo16 k.replay.toNat else hi16 k.replay.toNat
  else 0

/-- Lane A's lead over Lane B in retired instructions (R275). -/
def laneLead (s : State) : Nat := (s.laneA.count - s.laneB.count).toNat

/-- ASY.STAT.GATE: the last verdict opened the gate, and no later one is awaited (R286); a debug session's releases leave without
comparison (R299).
DEDUCED, log entry 108. -/
def gateShown (s : State) : Bool :=
  let a := s.asy
  if isSplit s then false
  else if a.unpaired then a.debugOut
  else a.gate && a.opened && a.rollback.isNone && (a.pend.filter (fun v => v.kind != .ckpt)).isEmpty

/-- In split mode the fields that concern comparison hold their Cold values (R273). -/
def compared (s : State) : AsyState :=
  if isSplit s then { AsyState.init with
    debugOut := s.asy.debugOut, debug := s.asy.debug, unpaired := s.asy.unpaired, injOk := s.asy.injOk, injRan := s.asy.injRan
    injFail := s.asy.injFail }
  else s.asy

def asyPort (s : State) (off : Nat) : W16 :=
  let a := compared s
  let head := fun (f : CharterHead → Nat) => match s.cht.charter with | some c => f c.head | none => 0
  let shownA := if a.misValid then a.sigA else a.agreed
  let shownB := if a.misValid then a.sigB else a.agreed
  let ckpts := (a.pend.filter (fun v => v.kind == .ckpt)).length
  match off with
  | 0 => fields [(7, bit a.perm), (6, bit a.recovery), (5, bit a.debugOut), (4, bit a.debug), (3, bit a.unpaired), (2, bit a.injOk),
      (1, bit (gateShown s)), (0, bit (isSplit s))]
  | 1 => fields [(15, bit a.misValid), (13, bit a.misTripB), (12, bit a.misTripA), (8, a.misTask), (0, a.misCode)]
  | 2 => lo16 a.misCyc.toNat
  | 3 => hi16 a.misCyc.toNat
  | 4 => lo16 a.misN.toNat
  | 5 => hi16 a.misN.toNat
  | 6 => lo16 (a.misN.toNat / 2 ^ 32)
  | 7 => lo16 a.transients
  | 8 => lo16 (head (·.offset))
  | 9 => hi16 (head (·.offset))
  | 0xA => lo16 (head (·.checkpoint))
  | 0xB => hi16 (head (·.checkpoint))
  | 0xC => if isSplit s then 0 else lo16 (laneLead s)
  | 0xD => if isSplit s then 0 else hi16 (laneLead s)
  | 0xE => fields [(8, min 31 ckpts), (0, min 255 (a.pend.length - ckpts))]
  | 0xF => fields [(15, bit (deliveryFull s)), (0, a.holds)]
  | 0x20 => fields [(15, bit a.injRan), (0, a.injFail.toNat)]
  | 0x100 => lo16 a.catchup
  | 0x101 => lo16 a.leadlim
  | _ =>
    if 0x10 ≤ off ∧ off < 0x18 then shownA.extractLsb' (16 * (off - 0x10)) 16
    else if 0x18 ≤ off ∧ off < 0x20 then shownB.extractLsb' (16 * (off - 0x18)) 16
    else 0

/-- The TALLY record of a task. -/
def tallyRec (s : State) (t : Task) : Option TallyRec := s.cht.charter.bind (fun c => c.tally.find? (fun r => r.task == t))

/-- The open cycle of a task as the tally board follows it: in Lane B where the lanes are paired, else in the task's own lane (R302). -/
def boardCycle (s : State) (t : Task) : Option LCycle := if isPaired s then s.laneB.cycle t else s.cycle (homeLane s t) t

def tlyPort (s : State) (off : Nat) : W16 :=
  let y := s.tly
  if off < 0x10 then
    match off with
    | 0 => y.dup
    | 1 => y.miss
    | 2 => y.seq
    | 3 => bitMask 16 (fun i => let t : Task := Fin.ofNat 16 i; (boardCycle s t).isSome && (y.task[t]).checkIns != 0)
    | 4 => fields [(15, bit y.firstValid), (12, y.firstKind), (8, y.firstTask), (0, y.firstReaction)]
    | 5 => lo16 y.firstCyc.toNat
    | 6 => hi16 y.firstCyc.toNat
    | 7 => lo16 y.firstPos
    | 8 => y.firstGot
    | _ => 0
  else if off < 0x50 then
    let t : Task := Fin.ofNat 16 ((off - 0x10) / 4)
    let k := y.task[t]
    match (off - 0x10) % 4 with
    | 0 => lo16 k.dupCount
    | 1 => lo16 k.missCount
    | 2 => lo16 k.seqCount
    | _ => fields [(8, tallyReaction s t), (0, match tallyRec s t with | some r => r.ntokens | none => 0)]
  else if off = 0x100 then y.tokenEn
  else 0

def wdtPort (s : State) (off : Nat) : W16 :=
  let w := s.wdt
  match off with
  | 1 => fields [(15, bit w.armed), (14, bit (decide (wdtOpens s ≤ w.count))), (13, bit w.prewarn), (4, w.trip), (0, w.last)]
  | 2 => lo16 w.count
  | 3 => hi16 w.count
  | 4 => lo16 w.land
  | 5 => hi16 w.land
  | 6 => match s.cht.charter with | some c => lo16 c.head.wdtPeriod | none => 0
  | 7 => fields [(8, match s.cht.charter with | some c => c.head.wdtClk | none => 0), (0, bitsOf (fuse40 s) 10 8)]
  | 8 => lo16 w.served
  | 0x100 => lo16 w.preMs
  | _ => 0

/-! ### PAIR and FLD (R355, R395) -/

def Mirror.code : Mirror → Nat
  | .none => 0
  | .resync => 1
  | .mirrored => 2
  | .lag => 3

def pairPort (s : State) (off : Nat) : W16 :=
  let p := s.pair
  match off with
  | 0 => fields [(15, bit p.present), (14, bit p.cwOk), (13, bit p.incompat), (12, bit p.swapRefused), (11, bit p.lagSeen),
      (8, p.mirror.code), (5, s.fld.stage), (0, p.role.code)]
  | 1 => lo16 p.claim.toNat
  | 2 => hi16 p.claim.toNat
  | 3 => lo16 p.pclaim.toNat
  | 4 => hi16 p.pclaim.toNat
  | 5 => lo16 p.cwClaim.toNat
  | 6 => hi16 p.cwClaim.toNat
  | 7 => lo16 p.high.toNat
  | 8 => hi16 p.high.toNat
  | 9 => match s.cht.charter.bind (·.pair) with | some r => fields [(8, r.swapH), (0, r.unit % 2)] | none => 0
  | 0xA => if swapCounts s then (match p.swapLeft with | some us => lo16 (min 0xFFFF (us / 60000000)) | none => 0xFFFF) else 0xFFFF
  | 0xC => lo16 p.handTime
  | 0xD => lo16 (min 0xFFFF p.delay)
  | 0xE => lo16 p.linkErr
  | 0xF => lo16 p.missed
  | 0x10 => lo16 ((p.queueBytes + 63) / 64 % 4096)
  | 0x11 => lo16 p.lags
  | 0x12 => lo16 p.swaps
  | 0x13 => if p.resyncLeft.isSome ∧ p.resyncTotal ≠ 0 then lo16 (min 1023 (1024 * p.resyncSent / p.resyncTotal)) else 0
  | 0x100 => lo16 p.swapRetry
  | 0x101 => lo16 p.resyncPace
  | _ => 0

def fldPort (s : State) (off : Nat) : W16 :=
  let f := s.fld
  let latched := chanMask s.fd (·.latched)
  if off < 0x20 then
    match off with
    | 0 => fields [(15, bit f.link), (14, bit s.fd.silent), (13, bit f.vfLow), (12, bit f.fwOk), (11, bit f.selftest), (5, f.stage),
        (0, bit (callsSafe s))]
    | 2 => lo16 f.inp.toNat
    | 3 => hi16 f.inp.toNat
    | 4 => lo16 f.out.toNat
    | 5 => hi16 f.out.toNat
    | 6 => lo16 f.rb.toNat
    | 7 => hi16 f.rb.toNat
    | 8 => lo16 (f.diag ||| latched).toNat
    | 9 => hi16 (f.diag ||| latched).toNat
    | 0xA => lo16 latched.toNat
    | 0xB => hi16 latched.toNat
    | 0xC => match s.cht.charter with | some c => lo16 c.head.silenceMs | none => 0
    | 0xD => lo16 f.silentCnt
    | 0xE => lo16 f.errRx
    | 0xF => lo16 f.errFd
    | 0x10 => f.temp.setWidth 16
    | 0x11 => f.vfield
    | _ => 0
  else if off < 0x60 then
    let x := s.fd.ch[Fin.ofNat 32 ((off - 0x20) / 2)]
    if off % 2 = 0 then
      fields [(14, x.cfg.mode.toNat), (8, bit x.pulseFail), (7, bit x.mismatch), (6, bit x.thermalLatch), (5, bit x.overtemp),
        (4, bit x.openOff), (3, bit x.openOn), (2, bit x.overload), (1, bit x.senseHigh), (0, bit x.wireBreak)]
    else x.current
  else if off = 0x100 then lo16 f.pulsePer
  else if off = 0x101 then lo16 f.openMa
  else 0

/-! ### MB0-MB3 (R419, R420) -/

/-- Mailboxes 16 q to 16 q + 15 that are PENDING or SENDING. -/
def txReq (s : State) (n : Bus) (q : Nat) : W16 :=
  bitMask 16 (fun i => mbxState s n (16 * q + i) == mbPending || mbxState s n (16 * q + i) == mbSending)

def mbPortValue (s : State) (n : Bus) (off : Nat) : W16 :=
  let m := s.mb[n]
  match off with
  | 0 => fields [(15, bit (busEnabled s n)), (14, bit m.listen), (13, bit m.ard),
      (12, bit m.alone), (11, bit m.held), (10, bit m.mbxDenied), (9, bit m.rxOvr), (8, bit m.pxe), (7, bit m.timDenied),
      (0, m.phase.code)]
  | 1 => lo16 m.tec
  | 2 => lo16 m.rec_
  | 0x14 => lo16 m.rxCount
  | 0x15 => lo16 m.rxHead
  | 0x17 => lo16 m.rxOvrCount
  | 0x18 => lo16 m.noAck
  | 0x19 => fields [(15, bit m.found), (0, if m.found then m.rateIdx else 0)]
  | 0x1A => fields [(15, bit (tdcOn s n)), (0, m.tdc.toNat)]
  | 0x1B => m.ien.setWidth 16
  | 0x1C => lo16 s.seq.ut.toNat
  | 0x1D => m.timeHi
  | 0x1E => fields [(8, bit m.errData), (0, m.errCode)]
  | 0x1F => match busRec s n with | some b => fields [(8, bitsOf b.flags 4 1), (0, b.alone)] | none => 0
  | 0x100 => m.nbt0
  | 0x101 => m.newNbt1
  | 0x102 => m.newDbt0
  | 0x103 => m.newDbt1
  | 0x104 => fields [(15, bit m.tdcOff), (0, m.tdcOffset.toNat)]
  | 0x105 => lo16 (bit m.hold)
  | 0x106 => lo16 m.ardDwell
  | _ =>
    if 4 ≤ off ∧ off < 8 then txReq s n (off - 4)
    else if 0x10 ≤ off ∧ off < 0x14 then m.txDone.extractLsb' (16 * (off - 0x10)) 16
    else 0

/-! ### HOST, XSP, PIL and BKP (R443, R512, R513, R548) -/

def hostPort (s : State) (off : Nat) : W16 :=
  let h := s.host
  match off with
  | 0 => fields ((List.range 8).map (fun m => (2 * m, hostKind s m)))
  | 1 => h.pend.setWidth 16
  | 3 => fields [(3, bit h.errCmd), (2, bit h.errBusyWr), (1, bit h.errBell), (0, bit h.errWinWr)]
  | 4 => lo16 (bit h.winOff)
  | 5 => lo16 h.xcount
  | 0x100 => lo16 h.dummy
  | _ => 0

def xspPort (s : State) (off : Nat) : W16 :=
  let x := s.xsp
  let d := currentRecord s.flash
  match off with
  | 0 => fields [(15, bit (portOk s false)), (14, bit (portOk s true)), (13, bit (flashBusy s)), (12, bit (pageValid s.flash.dir0)),
      (11, bit (pageValid s.flash.dir1)), (10, bit (currentPage s.flash == some true)), (0, bit x.err)]
  | 1 => lo16 x.p0
  | 2 => lo16 x.p1
  | 3 => lo16 d.dseq.toNat
  | 4 => hi16 d.dseq.toNat
  | 5 => fields (allKinds.flatMap (fun k => [(4 + k.code, bit x.inUse[kindIx k]), (k.code, bit (entryActive (entryOf d k)))]))
  | 6 => fields [(12, d.firmware.stateA.toNat), (8, d.firmware.stateB.toNat), (4, d.charter.stateA.toNat), (0, d.charter.stateB.toNat)]
  | 7 => fields [(4, d.program.stateA.toNat), (0, d.program.stateB.toNat)]
  | 0x100 => lo16 x.dirTmo
  | _ => 0

def pilPort (s : State) (off : Nat) : W16 :=
  let p := s.pil
  let storing := match p.store with | .storing _ _ => true | _ => false
  match off with
  | 0 => fields [(15, bit storing), (14, bit p.pfw), (13, bit p.recallOk), (12, bit (higherBank p == some true)), (11, bit p.refused),
      (10, bit p.uncorr), (9, bit p.corr), (8, bit p.torn), (0, p.reason)]
  | 1 => lo16 p.hf.page
  | 2 => fields [(1, p.hf.off / 2)]
  | 3 => lo16 (leNat [p.hf.data[Fin.ofNat 64 (p.hf.off / 2 * 2)], p.hf.data[Fin.ofNat 64 (p.hf.off / 2 * 2 + 1)]])
  | 6 => lo16 p.bank0.count.toNat
  | 7 => hi16 p.bank0.count.toNat
  | 8 => lo16 p.bank1.count.toNat
  | 9 => hi16 p.bank1.count.toNat
  | 0xA => lo16 p.corrCnt
  | 0xB => lo16 p.uncorrPg
  | 0xC => p.storeT
  | 0x100 => lo16 p.scrubMs
  | _ => 0

/-- While the interface of the backup domain is locked, its ports read 0 (R510). -/
def bkpPort (s : State) (off : Nat) : W16 :=
  let b := s.bkp
  let c := b.capture
  if b.locked then 0
  else if 0x20 ≤ off ∧ off < 0x40 then
    lo16 (leNat [b.bytes[Fin.ofNat 64 (2 * (off - 0x20))], b.bytes[Fin.ofNat 64 (2 * (off - 0x20) + 1)]])
  else
    match off with
    | 0 => fields [(15, bit b.timeValid), (14, bit b.timeLost), (13, bit b.dateErr), (12, bit b.calWrap), (11, bit b.alarm),
        (10, bit b.pwron), (9, bit b.pwronTo), (8, bit b.onVbat), (0, bit s.fuses.x32Load)]
    | 1 => lo16 b.cal.frac
    | 2 => fields [(8, c.minute), (0, c.second)]
    | 3 => fields [(8, c.day), (0, c.hour)]
    | 4 => fields [(4, c.year), (0, c.month)]
    | 8 => b.setYm
    | 9 => b.setDh
    | 0xA => b.setMs
    | 0xC => b.almYm
    | 0xD => b.almDh
    | 0xE => b.almMs
    | 0xF => lo16 (bit b.almEn)
    | 0x10 => b.trim.setWidth 16
    | _ => 0

/-! ### EVT, HLT and AGE (R487, R488, R530) -/

def evtPort (s : State) (off : Nat) : W16 :=
  let e := s.evt
  match off with
  | 0 => fields [(15, bit e.full), (14, bit e.qovr), (13, bit e.postDenied), (12, bit e.summary), (11, bit e.adopted)]
  | 1 => lo16 e.count
  | 2 => lo16 e.seq.toNat
  | 3 => hi16 e.seq.toNat
  | 4 => lo16 e.lost.toNat
  | 5 => hi16 e.lost.toNat
  | 6 => lo16 e.suppressed.toNat
  | 7 => hi16 e.suppressed.toNat
  | 8 => lo16 e.rsel
  | 0x20 => e.pcode
  | 0x21 => e.psev.setWidth 16
  | 0x100 => lo16 e.defK
  | 0x101 => lo16 e.defW
  | _ =>
    if 0x10 ≤ off ∧ off < 0x20 then e.rdata.getD (off - 0x10) 0
    else if 0x22 ≤ off ∧ off < 0x28 then e.ppar.toArray.getD (off - 0x22) 0
    else 0

/-- A 32-bit value as its LO and HI ports show it. -/
def half32 (v : W32) (hi : Bool) : W16 := if hi then hi16 v.toNat else lo16 v.toNat

def hltPort (s : State) (off : Nat) : W16 :=
  let h := s.hlt
  let lay := h.layout[h.sel]
  let odd := off % 2 == 1
  if 0x10 ≤ off ∧ off < 0x50 then half32 h.buf.bins[Fin.ofNat 32 ((off - 0x10) / 2)] odd
  else if 0x60 ≤ off ∧ off < 0x70 then h.ovr.toArray.getD (off - 0x60) 0
  else if 0x110 ≤ off ∧ off < 0x150 then half32 h.lim[Fin.ofNat 32 ((off - 0x110) / 2)] odd
  else
    match off with
    | 0 => lo16 h.sel.val
    | 1 => fields [(12, lay.source), (11, bit lay.log2), (0, lay.arg)]
    | 2 => half32 h.buf.min false
    | 3 => half32 h.buf.min true
    | 4 => half32 h.buf.max false
    | 5 => half32 h.buf.max true
    | 6 => half32 h.buf.last false
    | 7 => half32 h.buf.last true
    | 8 => half32 h.buf.samples false
    | 9 => half32 h.buf.samples true
    | 0x51 => half32 h.above false
    | 0x52 => half32 h.above true
    | 0x53 => lo16 (bit h.layoutDenied)
    | 0x100 => h.xsrc
    | 0x101 => h.xwidthLo
    | 0x102 => h.xwidthHi
    | _ => 0

/-- The island that AGE.SLACK and AGE.RO show; a SLSEL above 9 names none.
DESIGN CHOICE, log entry 37. -/
def agePort (s : State) (off : Nat) : W16 :=
  let g := s.age
  match off with
  | 0 => fields [(15, bit g.planRun), (14, bit g.noMargin), (13, bit g.lifeLow), (12, bit g.ledgerLost), (11, bit g.stepped)]
  | 1 => g.ledger.extractLsb' 0 16
  | 2 => g.ledger.extractLsb' 16 16
  | 3 => g.ledger.extractLsb' 32 16
  | 4 => g.life
  | 5 => fields [(8, s.laneB.ldo), (0, s.laneA.ldo)]
  | 6 => lo16 (min 0xFFFF (g.planAge / 3600))
  | 8 => lo16 g.slsel
  | 9 => if g.slsel < 10 then lo16 (islandSlack g (Fin.ofNat 10 g.slsel)) else 0
  | 0xA => g.ro.toArray.getD g.slsel 0
  | 0x100 => lo16 g.slackTarget
  | 0x101 => lo16 g.slackMin
  | _ => 0

/-! ### SEC, TRM, ING, TST and HF (R271, R372, R373, R42, R444, R547, R565, R575) -/

/-- IDCODE (R565). -/
def idcode : Nat := 0x1481674F

/-- SEC.CERT (R544): SERIAL, IDCODE, IDKEY, XPUB and 5 zero bytes, then the vendor's signature over bytes 0 to 125. -/
def certificate (s : State) : List Byte :=
  let body := leBytes 4 s.sec.serial.toNat ++ leBytes 4 idcode ++ padTo 57 ((Config.identityPub s.sec.keys).take 57) ++
    padTo 56 ((Config.transportPub s.sec.keys).take 56) ++ leBytes 5 0
  body ++ padTo 114 ((Config.vendorSign [0x4C, 0x5A, 0x4D, 0x46] body).take 114)

def secPort (s : State) (off : Nat) : W16 :=
  let c := s.sec
  let byteAt := fun (bs : List Byte) (i : Nat) => lo16 (leAt bs (2 * i) 2)
  match off with
  | 0 => fields [(15, bit c.busy), (14, bit c.open_), (13, bit (fuseDbgLock s)), (12, bit c.fuseOk),
      (8, fields (allKinds.map (fun k => (k.code, bit (c.vmark[kindIx k]).isSome))) |>.toNat), (0, c.scope.toNat)]
  | 1 => lo16 (bitsOf (fuse40 s) 7 0)
  | 2 => fields [(15, bit c.failValid), (8, c.failKind), (0, c.failCode)]
  | 3 => lo16 c.failBlk.toNat
  | 4 => hi16 c.failBlk.toNat
  | _ =>
    if 5 ≤ off ∧ off < 0xB then half32 (c.lgen.toArray.getD ((off - 5) / 2) 0) ((off - 5) % 2 == 1)
    else if 0x10 ≤ off ∧ off < 0x2D then byteAt ((Config.identityPub c.keys).take 57) (off - 0x10)
    else if 0x30 ≤ off ∧ off < 0x4C then byteAt ((Config.transportPub c.keys).take 56) (off - 0x30)
    else if 0x50 ≤ off ∧ off < 0xC8 then byteAt (certificate s) (off - 0x50)
    else 0

def trmPort (s : State) (off : Nat) : W16 :=
  if off < 0x80 then
    let ch : TramCh := Fin.ofNat 16 (off / 8)
    let x := s.tram.ch[ch]
    match off % 8 with
    | 0 => fields [(15, bit x.busy), (14, bit x.fault), (13, bit x.done), (8, if taskOwned s ch then ch.val else 16), (0, x.code.toNat)]
    | 1 => lo16 x.k
    | 2 => hi16 x.k
    | 3 => fields [(3, bit x.irqEn)]
    | _ => 0
  else if off = 0x80 then lo16 (bit s.tram.denied)
  else if off = 0x81 then s.tram.irq
  else if 0x100 ≤ off ∧ off < 0x110 then (s.tram.ch[Fin.ofNat 16 (off - 0x100)]).pace.setWidth 16
  else 0

/-- Milliseconds since an instant, saturating; 0xFFFF where there is none. -/
def ageMs (s : State) (at_ : Option W72) : W16 :=
  match at_ with
  | some t => lo16 (min 0xFFFF ((s.seq.ut - t).toNat / 1000))
  | none => 0xFFFF

def ingPort (s : State) (off : Nat) : W16 :=
  let g := s.ing
  let b : Block := Fin.ofNat 512 (bitsOf g.sel.toNat 8 0)
  let egress := g.sel.getLsbD 15
  let i := ingBlk s b
  let e := egrBlk s b
  match off with
  | 0 => g.sel
  | 1 =>
    if egress then fields [(15, bit (egressRec s b).isSome), (0, e.lastSeq.toNat)]
    else fields [(15, bit (ingressRec s b).isSome), (14, bit i.valid), (13, bit i.open_.isSome),
      (0, match i.open_ with | some l => l.length | none => 0)]
  | 2 => ageMs s (if egress then e.last else i.last)
  | 3 => if egress then e.count else i.count
  | 4 => lo16 g.malformed
  | 5 => lo16 g.orphan
  | 6 => lo16 g.incomplete
  | 7 => lo16 g.withdrawn
  | 8 => lo16 g.recErr
  | 0x100 => lo16 g.setMs
  | 0x101 => lo16 g.obtGap
  | _ => 0

def tstPort (s : State) (off : Nat) : W16 :=
  match off with
  | 0 => fields [(15, bit s.tap.prod), (14, bit s.sec.open_), (13, bit (s.tap.ir == 0x20)), (12, bit s.tap.refused), (0, s.tap.ir.toNat)]
  | 1 => lo16 idcode
  | 2 => hi16 idcode
  | _ => 0

/-- HF.SVCQ0-15 (R370): the oldest request, zeros while the queue is empty. -/
def svcPort (s : State) (i : Nat) : W16 :=
  match s.hf.svcq with
  | [] => 0
  | q :: _ =>
    match i with
    | 0 => q.code
    | 1 => fields [(15, bit q.laneB), (14, bit q.retry), (4, q.ord % 1024), (0, q.task.val)]
    | 2 => lo16 q.cycle.toNat
    | 3 => hi16 q.cycle.toNat
    | _ => (q.x.getD ((i - 4) / 3) 0).extractLsb' (16 * ((i - 4) % 3)) 16

def hfPort (s : State) (off : Nat) : W16 :=
  let h := s.hf
  match off with
  | 0 => fields [(15, bit h.locked), (14, bit h.intStop), (13, bit h.double), (12, bit h.ie), (11, bit h.p), (5, h.level),
      (0, bitsOf h.imask.toNat 4 0)]
  | 1 => h.ien.extractLsb' 0 16 ||| 0x3F
  | 2 => h.ien.extractLsb' 16 16
  | 3 => bitMask 16 (vectorPending s)
  | 4 => bitMask 16 (fun i => vectorPending s (16 + i))
  | 5 => fields [(15, bit h.faultValid), (8, bit h.faultPf), (0, h.faultVec)]
  | 6 => h.faultPc.setWidth 16
  | 7 => h.faultAddr
  | 8 => lo16 (generation s)
  | 9 => lo16 (fusePartGen s)
  | 0xA => fields [(12, fuseRev s), (6, 32)]
  | 0xB => fields [(5, bit h.intPart), (0, 0x1F)]
  | 0xC => lo16 h.frames.length
  | 0x10 => h.winCtl
  | 0x11 => fields [(5, bit h.winPartial), (4, bit (h.win0.isSome || h.win1.isSome)), (3, bit h.winNotEdit), (2, bit h.winQfull),
      (1, bit h.winRange), (0, bit h.winSeg)]
  | 0x12 => h.bank.setWidth 16
  | 0x13 => lo16 h.svcq.length
  | 0x34 => h.perm4
  | _ =>
    if 0x20 ≤ off ∧ off < 0x30 then svcPort s (off - 0x20)
    else if 0x30 ≤ off ∧ off < 0x34 then h.perm.toArray.getD (off - 0x30) 0
    else 0

/-! ### Reads (R11, R44) -/

/-- The value a read of port `a` returns; 0 where no block defines the address (R11). -/
def portValue (s : State) (a : Nat) : W16 :=
  let off := a % 0x200
  match a / 0x200 with
  | 0 => sysPort s off
  | 1 => clkPort s off
  | 2 => seamPort s off
  | 3 => chtPort s off
  | 4 => lanePort s off
  | 5 => asyPort s off
  | 6 => tlyPort s off
  | 7 => wdtPort s off
  | 8 => pairPort s off
  | 9 => fldPort s off
  | 10 => mbPortValue s 0 off
  | 11 => mbPortValue s 1 off
  | 12 => mbPortValue s 2 off
  | 13 => mbPortValue s 3 off
  | 14 => hostPort s off
  | 15 => xspPort s off
  | 16 => pilPort s off
  | 17 => bkpPort s off
  | 18 => evtPort s off
  | 19 => hltPort s off
  | 20 => agePort s off
  | 21 => secPort s off
  | 22 => trmPort s off
  | 23 => ingPort s off
  | 24 => tstPort s off
  | 25 => hfPort s off
  | _ => 0

/-- What a read of port `a` changes: MBn.ERRCODE and MBn.TIME_LO, the calendar capture, and the conditions of vectors 7, 8, 19, 20 and
21 that no flag holds, which a read of the block's status port clears.
DESIGN CHOICE, log entry 31. -/
def readEffect (s : State) (a : Nat) : State :=
  let off := a % 0x200
  let block := a / 0x200
  if 10 ≤ block ∧ block < 14 then
    let n : Bus := Fin.ofNat 4 (block - 10)
    if off = 0x1E then errcodeEffect n s else if off = 0x1C then timeLoEffect n s else s
  else
    match a with
    | 0x2201 => calFracEffect s
    | 0x0A00 => { s with hf := { s.hf with noteAssay := false } }
    | 0x1000 => { s with hf := { s.hf with noteRole := false } }
    | 0x1E00 => { s with hf := { s.hf with noteFlash := false } }
    | 0x2A00 => { s with hf := { s.hf with noteCrypto := false } }
    | 0x2000 => { s with hf := { s.hf with notePillar := false } }
    | _ => s

/-- A read of a port: its value, and the part after it.
DESIGN CHOICE, log entries 10, 31. -/
def portRead (s : State) (a : Nat) : State × W16 :=
  let v := portValue s a
  let s1 := readEffect s a
  ({ s1 with hf := { s1.hf with portIn := v } }, v)

end Sys2Proof.Machine
end

