-- ==== Sys2Proof/Machine/Gating.lean ====
section
/-! DEFINITION. How an island's gate closes (R27, R458, R459), and the pulse seams (R467, R468). -/

namespace Sys2Proof.Machine

open Sys2Proof

/-- GATE_CLOSE: an island has had no work and no open handshake for GATE_IDLE clocks: its gate enters CLOSING, and at the island's next clock
edge it is CLOSED (R459).
DESIGN CHOICE, log entry 122. -/
def execGateClose (i : Island) (s : State) : Out :=
  .next (
    if islandHasWork s i || seamOpen s i || s.clk.gateDis.getLsbD i.val then s
    else s.modClk (fun k => { k with gate := k.gate.set i (if k.gate[i] = .open_ then .closing else .closed) }))

/-- The vector that a pulse seam's fact raises (R366, R468). -/
def seamVector (i : Fin 16) : Nat :=
  ([6, 22, 13, 21, 23, 15, 16, 17, 18, 14, 19, 8, 7, 12, 24, 10] : List Nat).getD i.val 0

/-- The fact that a pulse seam notifies stands as state in its source block (R468). -/
def seamFact (s : State) (i : Fin 16) : Bool := vectorPending s (seamVector i)

/-- PULSE_SEAM_EVENT: a notification of a fact that stands enters its pulse seam, after `returned` of its round trips have returned to idle
(R467, R468). Without its fact a seam carries nothing.
DESIGN CHOICE, log entry 122. -/
def execPulseSeamEvent (i : Fin 16) (returned : Nat) (s : State) : Out :=
  .next (if seamFact s i then enterSeam s i (min returned 2) else s)

end Sys2Proof.Machine
end

