-- ==== Sys2Proof/Machine/PortWrite.lean ====
section
/-! DEFINITION. What a write of each I/O port does (R10-R16, R46, R270, R365 and the register tables of the blocks): flags cleared by a
1, fields stored where the value is allowed, keys and other ports that act. -/

namespace Sys2Proof.Machine

open Sys2Proof

/-- A flag that a 1 clears (R12). -/
def w1c (flag : Bool) (value : W16) (i : Nat) : Bool := flag && !value.getLsbD i

/-- A field stored where its value lies in a range; any other value is ignored. -/
def inRange (v lo hi : Nat) (old : Nat) : Nat := if lo ≤ v ∧ v ≤ hi then v else old

/-- One half of a 32-bit value replaced. -/
def setHalf (old : W32) (hi : Bool) (v : W16) : W32 := if hi then v ++ old.setWidth 16 else old.extractLsb' 16 16 ++ v

/-- One half of a 32-bit flag word whose ones a write clears. -/
def w1cHalf (old : W32) (hi : Bool) (v : W16) : W32 := if hi then old &&& ~~~(v ++ 0#16) else old &&& ~~~(v.setWidth 32)

/-! ### SYS, CLK and SEAM (R110, R470, R471) -/

def sysWrite (a : Nat) (value : W16) (s : State) : State :=
  match a % 0x200 with
  | 0 => { s with sys := { s.sys with expertDenied := w1c s.sys.expertDenied value 15, retLost := w1c s.sys.retLost value 14 } }
  | 2 => if value = 0x5AF0 then resetSource s 5 else if value = 0x5AF1 then coldReset s else keyBad s a value
  | _ => s

def clkWrite (off : Nat) (value : W16) (s : State) : State :=
  let v := value.toNat
  match off with
  | 0 => s.modClk (fun k => { k with
      forced := w1c k.forced value 13, divDenied := w1c k.divDenied value 12, refBad := w1c k.refBad value 11 })
  | 0x100 => s.modClk (fun k => { k with rampStep := inRange (bitsOf v 12 0) 16 4096 k.rampStep })
  | 0x101 => s.modClk (fun k => { k with judgeWin := inRange (bitsOf v 3 0) 6 15 k.judgeWin })
  | 0x102 => s.modClk (fun k => { k with gateIdle := inRange (bitsOf v 9 0) 1 1023 k.gateIdle })
  | 0x103 => gateDisEffect value s
  | _ => if 0x110 ≤ off ∧ off < 0x11A then divSetEffect (Fin.ofNat 10 (off - 0x110)) value s else s

def seamWrite (off : Nat) (value : W16) (s : State) : State :=
  match off with
  | 0 => s.modSeam (fun k => { k with stuck := w1c k.stuck value 15, ovr := w1c k.ovr value 14 })
  | 4 => s.modSeam (fun k => { k with psel := bitsOf value.toNat 3 0 })
  | 5 => if value.getLsbD 14 then pstatClearEffect s else s
  | 0x104 => s.modSeam (fun k => { k with timeout := inRange value.toNat 256 65535 k.timeout })
  | _ => s

/-! ### LANE, ASY, TLY and WDT (R270, R300, R310, R318) -/

def laneWrite (off : Nat) (value : W16) (s : State) : State :=
  if off = 5 then
    allTasks.foldl (fun acc t => if value.getLsbD t.val then acc.modTask t (fun k => { k with ovrWarn := false }) else acc) s
  else if off = 7 then { s with seq := { s.seq with parB := w1c s.seq.parB value 1, parA := w1c s.seq.parA value 0 } }
  else if off = 8 then { s with seq := { s.seq with fltValid := w1c s.seq.fltValid value 15 } }
  else if 0x10 ≤ off ∧ off < 0x90 then
    if (off - 0x10) % 8 = 4 then s.modTask (Fin.ofNat 16 ((off - 0x10) / 8)) (fun k => { k with hfFlag := k.hfFlag &&& ~~~value })
    else s
  else if 0x100 ≤ off ∧ off < 0x120 then
    s.modTask (Fin.ofNat 16 ((off - 0x100) / 2)) (fun k => { k with replay := setHalf k.replay (off % 2 == 1) value })
  else s

/-- ASY writes (R300). In split mode the fields that concern comparison hold their Cold values (R273). -/
def asyWrite (off : Nat) (value : W16) (s : State) : State :=
  match off with
  | 0 => { s with asy := { s.asy with perm := w1c s.asy.perm value 7 } }
  | 1 => { s with asy := { s.asy with misValid := w1c s.asy.misValid value 15 } }
  | 0x100 => if isSplit s then s else { s with asy := { s.asy with catchup := inRange (bitsOf value.toNat 12 0) 50 5000 s.asy.catchup } }
  | 0x101 => if isSplit s then s else { s with asy := { s.asy with leadlim := inRange (bitsOf value.toNat 6 0) 4 64 s.asy.leadlim } }
  | _ => s

/-- Tasks whose TALLY record has tokens: a 1 for another has no effect (R310). -/
def tokenTasks (s : State) : W16 := bitMask 16 (fun i => match tallyRec s (Fin.ofNat 16 i) with | some r => r.ntokens != 0 | none => false)

def tlyWrite (off : Nat) (value : W16) (s : State) : State :=
  match off with
  | 0 => { s with tly := { s.tly with dup := s.tly.dup &&& ~~~value } }
  | 1 => { s with tly := { s.tly with miss := s.tly.miss &&& ~~~value } }
  | 2 => { s with tly := { s.tly with seq := s.tly.seq &&& ~~~value } }
  | 4 => { s with tly := { s.tly with firstValid := w1c s.tly.firstValid value 15 } }
  | 0x100 => { s with tly := { s.tly with tokenEn := value &&& tokenTasks s } }
  | _ => s

/-- A key written with OUT lands within the OUT, on one of the next ticks of the watchdog's clock (R314); a key that is still on its way is
WDT_KEY_LAND (R313).
DESIGN CHOICE, log entry 38. -/
def wdtWrite (off : Nat) (value : W16) (s : State) : State :=
  match off with
  | 0 => let (s1, n) := s.takeFree; wdtLand (wdtCount s1 (Config.freeNat n % 3)) value
  | 1 => s.modWdt (fun w => { w with prewarn := w1c w.prewarn value 13 })
  | 0x100 => s.modWdt (fun w => { w with preMs := bitsOf value.toNat 7 0 })
  | _ => s

/-! ### PAIR and FLD (R355, R395) -/

def pairWrite (a : Nat) (value : W16) (s : State) : State :=
  match a % 0x200 with
  | 0 => s.modPair (fun p => { p with
      incompat := w1c p.incompat value 13, swapRefused := w1c p.swapRefused value 12, lagSeen := w1c p.lagSeen value 11 })
  | 0xB => if value = 0x6A51 then triggerSwap s 1 else if value = 0x6A52 then queueFrame s .resetReq else keyBad s a value
  | 0x100 => s.modPair (fun p => { p with swapRetry := inRange (bitsOf value.toNat 11 0) 1 3600 p.swapRetry })
  | 0x101 => s.modPair (fun p => { p with resyncPace := inRange (bitsOf value.toNat 4 0) 1 16 p.resyncPace })
  | _ => s

def chanFlagWrite (ch : Chan) (value : W16) (s : State) : State :=
  s.modChan ch (fun x => { x with
    pulseFail := w1c x.pulseFail value 8, mismatch := w1c x.mismatch value 7, overtemp := w1c x.overtemp value 5
    openOff := w1c x.openOff value 4, openOn := w1c x.openOn value 3, overload := w1c x.overload value 2
    senseHigh := w1c x.senseHigh value 1 })

def fldWrite (a : Nat) (value : W16) (s : State) : State :=
  let off := a % 0x200
  if off = 1 then (if value = 0x7E10 then fldReleaseEffect s else keyBad s a value)
  else if off = 0xA then fldLatchEffect false value s
  else if off = 0xB then fldLatchEffect true value s
  else if 0x20 ≤ off ∧ off < 0x60 then (if off % 2 = 0 then chanFlagWrite (Fin.ofNat 32 ((off - 0x20) / 2)) value s else s)
  else if off = 0x100 then s.modFld (fun f => { f with pulsePer := inRange (bitsOf value.toNat 6 0) 10 100 f.pulsePer, configDue := true })
  else if off = 0x101 then s.modFld (fun f => { f with openMa := inRange (bitsOf value.toNat 5 0) 1 50 f.openMa, configDue := true })
  else s

/-! ### MB0-MB3 (R419, R420) -/

def mbWrite (n : Bus) (off : Nat) (value : W16) (s : State) : State :=
  let q : Fin 4 := Fin.ofNat 4 off
  if off = 0 then
    s.modMb n (fun m => { m with
      mbxDenied := w1c m.mbxDenied value 10, rxOvr := w1c m.rxOvr value 9, pxe := w1c m.pxe value 8, timDenied := w1c m.timDenied value 7 })
  else if off = 3 then
    let s1 := if value.getLsbD 0 then goActiveEffect n s else s
    if value.getLsbD 1 then mbReleaseEffect n s1 else s1
  else if 8 ≤ off ∧ off < 0xC then txsetEffect n q value s
  else if 0xC ≤ off ∧ off < 0x10 then txabortEffect n q value s
  else if 0x10 ≤ off ∧ off < 0x14 then txdoneEffect n q value s
  else
    match off with
    | 0x16 => rxfPopEffect n s
    | 0x1B => s.modMb n (fun m => { m with ien := value.setWidth 6 })
    | 0x100 => timingEffect n value s
    | 0x101 => s.modMb n (fun m => { m with newNbt1 := value &&& 0x3F3F#16, nbtWritten := true })
    | 0x102 => s.modMb n (fun m => { m with newDbt0 := value &&& 0x1F1F#16, nbtWritten := true })
    | 0x103 => s.modMb n (fun m => { m with newDbt1 := value &&& 0x0F0F#16, nbtWritten := true })
    | 0x104 => s.modMb n (fun m => { m with tdcOff := value.getLsbD 15, tdcOffset := value.setWidth 8 })
    | 0x105 => s.modMb n (fun m => { m with hold := value.getLsbD 0 })
    | 0x106 => s.modMb n (fun m => { m with ardDwell := inRange (bitsOf value.toNat 12 0) 10 5000 m.ardDwell })
    | _ => s

/-! ### HOST, XSP, PIL and BKP (R443, R512, R513, R548) -/

def hostPortWrite (off : Nat) (value : W16) (s : State) : State :=
  match off with
  | 2 => finEffect (value.setWidth 8) s
  | 3 => s.modHost (fun h => { h with
      errCmd := w1c h.errCmd value 3, errBusyWr := w1c h.errBusyWr value 2, errBell := w1c h.errBell value 1
      errWinWr := w1c h.errWinWr value 0 })
  | 4 => s.modHost (fun h => { h with winOff := value.getLsbD 0 })
  | 0x100 => s.modHost (fun h => { h with dummy := inRange (bitsOf value.toNat 5 0) 8 32 h.dummy })
  | _ => s

def xspWrite (off : Nat) (value : W16) (s : State) : State :=
  match off with
  | 0 => { s with xsp := { s.xsp with err := w1c s.xsp.err value 0 } }
  | 0x100 => { s with xsp := { s.xsp with dirTmo := inRange (bitsOf value.toNat 12 0) 100 5000 s.xsp.dirTmo } }
  | _ => s

def pilWrite (off : Nat) (value : W16) (p : Bool) (s : State) : State :=
  match off with
  | 0 => s.modPil (fun x => { x with
      refused := w1c x.refused value 11, uncorr := w1c x.uncorr value 10, corr := w1c x.corr value 9, torn := w1c x.torn value 8 })
  | 1 => pilPageEffect s value
  | 2 => s.modPil (fun x => { x with hf := { x.hf with off := 2 * bitsOf value.toNat 5 1 } })
  | 3 => pilGdataEffect s value
  | 4 => if value = 0x5C01 then pilCommitEffect p s else s
  | 5 => if value = 0x5C57 then requestStore s else s
  | 0x100 => s.modPil (fun x => { x with scrubMs := inRange (bitsOf value.toNat 9 0) 100 1000 x.scrubMs })
  | _ => s

/-- Writes to the backup domain are ignored while its interface is locked (R510).
DESIGN CHOICE, log entry 38. -/
def bkpWrite (off : Nat) (value : W16) (s : State) : State :=
  if s.bkp.locked then s
  else if 0x20 ≤ off ∧ off < 0x40 then
    s.modBkp (fun b => { b with
      bytes := (b.bytes.set (Fin.ofNat 64 (2 * (off - 0x20))) (value.setWidth 8)).set (Fin.ofNat 64 (2 * (off - 0x20) + 1)) (value.extractLsb' 8 8) })
  else
    match off with
    | 0 => s.modBkp (fun b => { b with
        timeLost := w1c b.timeLost value 14, dateErr := w1c b.dateErr value 13, calWrap := w1c b.calWrap value 12
        alarm := w1c b.alarm value 11, pwronTo := w1c b.pwronTo value 9, onVbat := w1c b.onVbat value 8 })
    | 8 => s.modBkp (fun b => { b with setYm := value &&& 0x1FFF#16 })
    | 9 => s.modBkp (fun b => { b with setDh := value &&& 0x1F1F#16 })
    | 0xA => bkpSetMsEffect s value
    | 0xC => s.modBkp (fun b => { b with almYm := value &&& 0x1FFF#16 })
    | 0xD => s.modBkp (fun b => { b with almDh := value &&& 0x1F1F#16 })
    | 0xE => bkpAlmMsEffect s value
    | 0xF => s.modBkp (fun b => { b with almEn := value.getLsbD 0 })
    | 0x10 => s.modBkp (fun b => { b with trim := value.setWidth 12 })
    | 0x11 => if value = 0x9F0E then pwronRelEffect s else s
    | _ => s

/-! ### EVT, HLT and AGE (R487, R488, R530) -/

def evtWrite (off : Nat) (value : W16) (p : Bool) (s : State) : State :=
  if 0x22 ≤ off ∧ off < 0x28 then s.modEvt (fun e => { e with ppar := e.ppar.set (Fin.ofNat 6 (off - 0x22)) value })
  else
    match off with
    | 0 => s.modEvt (fun e => { e with
        qovr := w1c e.qovr value 14, postDenied := w1c e.postDenied value 13, summary := w1c e.summary value 12 })
    | 8 => evtRselEffect s value
    | 0x20 => s.modEvt (fun e => { e with pcode := value })
    | 0x21 => s.modEvt (fun e => { e with psev := value.setWidth 3 })
    | 0x28 => evtPostEffect p s
    | 0x100 => s.modEvt (fun e => { e with defK := inRange value.toNat 1 65535 e.defK })
    | 0x101 => s.modEvt (fun e => { e with defW := inRange (bitsOf value.toNat 11 0) 1 3600 e.defW })
    | _ => s

def hltWrite (off : Nat) (value : W16) (s : State) : State :=
  let odd := off % 2 == 1
  if 0x110 ≤ off ∧ off < 0x150 then
    { s with hlt := { s.hlt with lim := vecModify s.hlt.lim (Fin.ofNat 32 ((off - 0x110) / 2)) (fun v => setHalf v odd value) } }
  else
    match off with
    | 0 => hltSelEffect s value
    | 0x50 => hltClrEffect s
    | 0x51 => { s with hlt := { s.hlt with above := w1cHalf s.hlt.above false value } }
    | 0x52 => { s with hlt := { s.hlt with above := w1cHalf s.hlt.above true value } }
    | 0x53 => { s with hlt := { s.hlt with layoutDenied := w1c s.hlt.layoutDenied value 0 } }
    | 0x100 => { s with hlt := { s.hlt with xsrc := value &&& 0xF8FF#16 } }
    | 0x101 => { s with hlt := { s.hlt with xwidthLo := value } }
    | 0x102 => hltXwidthEffect s value
    | _ => s

/-- `n` 16-bit values that nothing states: what a measurement that no operand carries gives.
DESIGN CHOICE, log entry 38. -/
def freeMeasurements (s : State) (n : Nat) : State × List W16 :=
  ({ s with free := s.free + n }, (List.range n).map (fun i => (Config.freeWord (s.free + i)).setWidth 16))

/-- AGE.CMD written: a plan whose measurements no operand carries (AGE_CMD carries them). -/
def agePlanEffect (s : State) : State :=
  let (s1, slacks) := freeMeasurements s 48
  startPlan s1 slacks

def ageWrite (off : Nat) (value : W16) (s : State) : State :=
  match off with
  | 0 => s.modAge (fun g => { g with noMargin := w1c g.noMargin value 14, lifeLow := w1c g.lifeLow value 13 })
  | 7 => if value = 0x4D50 then agePlanEffect s else s
  | 8 => s.modAge (fun g => { g with slsel := bitsOf value.toNat 3 0 })
  | 0x100 => s.modAge (fun g => { g with slackTarget := inRange (bitsOf value.toNat 9 0) 20 500 g.slackTarget })
  | 0x101 => s.modAge (fun g => { g with slackMin := inRange (bitsOf value.toNat 9 0) 10 g.slackTarget g.slackMin })
  | _ => s

/-! ### SEC, TRM, ING, TST and HF (R42, R271, R365, R373, R444, R547, R575) -/

/-- A write of the engine's command interface starts the engine (R547); CRYPTO_ENGINE_DONE ends it.
DESIGN CHOICE, log entry 39. -/
def secWrite (off : Nat) (value : W16) (s : State) : State :=
  if 0x100 ≤ off then { s with sec := { s.sec with busy := true } }
  else if off = 2 then { s with sec := { s.sec with failValid := w1c s.sec.failValid value 15 } }
  else s

/-- A write of a TRM port (R259, R271). Of several control bits in one write ABORT acts first, then RESUME, then GO.
DESIGN CHOICE, log entry 130. -/
def trmWrite (off : Nat) (value : W16) (s : State) : State :=
  if off < 0x80 then
    let ch : TramCh := Fin.ofNat 16 (off / 8)
    if off % 8 = 3 then
      let s1 := trmControl s ch (fun x => x.modTram ch (fun c => { c with irqEn := value.getLsbD 3 }))
      let s2 := if value.getLsbD 2 then trmAbortEffect s1 ch else s1
      let s3 := if value.getLsbD 1 then trmResumeEffect s2 ch else s2
      if value.getLsbD 0 then trmGoEffect s3 ch else s3
    else s
  else if off = 0x80 then { s with tram := { s.tram with denied := w1c s.tram.denied value 0 } }
  else if off = 0x81 then { s with tram := { s.tram with irq := s.tram.irq &&& ~~~value } }
  else if 0x100 ≤ off ∧ off < 0x110 then s.modTram (Fin.ofNat 16 (off - 0x100)) (fun c => { c with pace := value.setWidth 8 })
  else s

def ingWrite (off : Nat) (value : W16) (s : State) : State :=
  match off with
  | 0 => { s with ing := { s.ing with sel := value &&& 0x81FF#16 } }
  | 0x100 => { s with ing := { s.ing with setMs := inRange (bitsOf value.toNat 9 0) 1 1000 s.ing.setMs } }
  | 0x101 => { s with ing := { s.ing with obtGap := inRange (bitsOf value.toNat 9 0) 10 1000 s.ing.obtGap } }
  | _ => s

/-- HF.LOCK (R365, R373). -/
def hfLockEffect (s : State) : State := { s with hf := { s.hf with locked := true } }

/-- HF.SVC_POP (R370): a pop of an empty queue is ignored. -/
def svcPopEffect (s : State) : State := { s with hf := { s.hf with svcq := s.hf.svcq.drop 1 } }

/-- HF.IEN_HI (R364, R373): with P = 1 only the bits of vectors 26 to 31 take effect.
DESIGN CHOICE, log entry 38. -/
def ienHi (old : W32) (p : Bool) (value : W16) : W32 :=
  if p then (old &&& 0x03FFFFFF#32) ||| ((value &&& 0xFC00#16) ++ 0#16) else setHalf old true value

def hfPortWrite (off : Nat) (value : W16) (p : Bool) (s : State) : State :=
  let h := s.hf
  let open_ := !h.locked && !p
  match off with
  | 1 => if open_ then { s with hf := { h with ien := setHalf h.ien false value } } else s
  | 2 => { s with hf := { h with ien := ienHi h.ien p value } }
  | 5 => { s with hf := { h with faultValid := w1c h.faultValid value 15 } }
  | 0xD => if value = 0x4C4B then hfLockEffect s else s
  | 0x10 => winCtlEffect s value
  | 0x11 => { s with hf := { h with
      winPartial := w1c h.winPartial value 5, winNotEdit := w1c h.winNotEdit value 3, winQfull := w1c h.winQfull value 2
      winRange := w1c h.winRange value 1, winSeg := w1c h.winSeg value 0 } }
  | 0x12 => { s with hf := { h with bank := value.setWidth 3 } }
  | 0x14 => svcPopEffect s
  | 0x30 => if open_ then { s with hf := { h with perm := h.perm.set 0 value } } else s
  | 0x31 => if open_ then { s with hf := { h with perm := h.perm.set 1 value } } else s
  | 0x32 => if open_ then { s with hf := { h with perm := h.perm.set 2 value } } else s
  | 0x33 => if open_ then { s with hf := { h with perm := h.perm.set 3 (value &&& 0xF#16) } } else s
  | 0x34 => if open_ then { s with hf := { h with perm4 := (value &&& 0x3FF#16) ||| 0x80#16 } } else s
  | _ => s

/-! ### Writes (R11, R14, R44) -/

/-- What a write that passed the permission map and the expert grants does; an address that no block defines is ignored (R11).
DESIGN CHOICE, log entry 38. -/
def portEffect (a : Nat) (value : W16) (p : Bool) (s : State) : State :=
  let off := a % 0x200
  match a / 0x200 with
  | 0 => sysWrite a value s
  | 1 => clkWrite off value s
  | 2 => seamWrite off value s
  | 4 => laneWrite off value s
  | 5 => asyWrite off value s
  | 6 => tlyWrite off value s
  | 7 => wdtWrite off value s
  | 8 => pairWrite a value s
  | 9 => fldWrite a value s
  | 10 => mbWrite 0 off value s
  | 11 => mbWrite 1 off value s
  | 12 => mbWrite 2 off value s
  | 13 => mbWrite 3 off value s
  | 14 => hostPortWrite off value s
  | 15 => xspWrite off value s
  | 16 => pilWrite off value p s
  | 17 => bkpWrite off value s
  | 18 => evtWrite off value p s
  | 19 => hltWrite off value s
  | 20 => ageWrite off value s
  | 21 => secWrite off value s
  | 22 => trmWrite off value s
  | 23 => ingWrite off value s
  | 24 => if off = 0 then { s with tap := { s.tap with refused := w1c s.tap.refused value 12 } } else s
  | 25 => hfPortWrite off value p s
  | _ => s

/-- A write of a port, with every check (R14, R45). -/
def portWrite (s : State) (a : Nat) (value : W16) (p : Bool) : State := gatedWrite s a p (portEffect a value p)

/-- PORT_WRITE: an OUT to a port (R14).
DESIGN CHOICE, log entry 7. -/
def execPortWrite (addr value : W16) (p : Bool) (s : State) : Out := .next (portWrite s addr.toNat value p)

/-- HF_SVC_POP: a write of HF.SVC_POP (R370).
DESIGN CHOICE, log entry 32. -/
def execHfSvcPop (p : Bool) (s : State) : Out := .next (gatedWrite s 0x3214 p svcPopEffect)

/-- HF_LOCK: a write of 0x4C4B to HF.LOCK (R365). -/
def execHfLock (p : Bool) (s : State) : Out := .next (gatedWrite s 0x320D p hfLockEffect)

/-- HF_WIN_CTL_WRITE: a write of HF.WIN_CTL (R43). -/
def execHfWinCtlWrite (value : W16) (p : Bool) (s : State) : Out := .next (gatedWrite s 0x3210 p (winCtlEffect · value))

end Sys2Proof.Machine
end

