-- ==== Sys2Proof/Machine/Headframe.lean ====
section
/-! DEFINITION. The Headframe processor (R356-R373): the frame of an instruction, its operands and transfers, and the meaning of every
Headframe instruction, of the entry to a vector and of a service call that vendor firmware serves. -/

namespace Sys2Proof.Machine

open Sys2Proof

def State.modHf (s : State) (f : HfState → HfState) : State := { s with hf := f s.hf }

/-- P of R358: PC lies in the integrator partition.
DEDUCED, log entry 24. -/
def inPartition (pc : BitVec 15) : Bool := decide (0x6000 ≤ pc.toNat)

/-- A call gate (R364).
DEDUCED, log entry 25. -/
def callGate (pc : BitVec 15) : Bool := decide (0x5F00 ≤ pc.toNat) && decide (pc.toNat < 0x5F40)

/-- Execution goes on at an address.
DEDUCED, log entry 24. -/
def hfGo (s : State) (pc : BitVec 15) : State := s.modHf (fun h => { h with pc := pc, p := inPartition pc })

/-- Execution goes on with the next instruction, modulo 32,768 (R356).
DEDUCED, log entry 24. -/
def hfNext (s : State) : State := hfGo s (s.hf.pc + 1)

/-- Whether a condition holds (R187, R360). -/
def hcondHolds (s : State) (c : HCond) : Bool :=
  let h := s.hf
  match c with
  | .al => true
  | .eq => h.z
  | .ne => !h.z
  | .lt => h.n != h.v
  | .ge => h.n == h.v
  | .gt => !h.z && h.n == h.v
  | .le => h.z || h.n != h.v
  | .lo => !h.c
  | .hs => h.c
  | .vs => h.v
  | .vc => !h.v
  | .fc => s.sys.state == .starting
  | .fw => s.sys.state == .starting && s.sys.warm

/-- The Headframe fetches: the root runs (R447), no OUT stands open (R314), no double fault, no WAIT, and a halt only lets one step through (R361,
R368, R572). -/
def hfFetches (s : State) : Bool := s.clk.lock && !s.wdt.held && !s.hf.dead && !s.hf.waiting && (!s.hf.halted || s.hf.stepOne)

/-- The frame of an instruction: nothing while the Headframe does not fetch; only the advance where the condition is false (R360).
DESIGN CHOICE, log entry 5. -/
def hfStep (c : HCond) (s : State) (body : State → State) : Out :=
  .next (
    if hfFetches s then
      let s1 := s.modHf (fun h => { h with stepOne := false })
      if hcondHolds s c then body s1 else hfNext s1
    else s)

def hfReg (s : State) (r : Reg) : W16 := s.hf.w[r]
def hfSet (s : State) (r : Reg) (v : W16) : State := s.modHf (fun h => { h with w := h.w.set r v })
def hfFlags (s : State) : Flags := ⟨s.hf.n, s.hf.z, s.hf.c, s.hf.v⟩
def hfPutFlags (s : State) (f : Flags) : State := s.modHf (fun h => { h with n := f.n, z := f.z, c := f.c, v := f.v })

/-- A result with its flags written, and the next instruction. -/
def hfResult (s : State) (wd : Reg) (v : W16) (f : Flags) : State := hfNext (hfPutFlags (hfSet s wd v) f)

/-- ILLEGAL where no address is concerned: what HF.FAULT_ADDR captures then is not stated.
DESIGN CHOICE, log entry 26. -/
def hfIllegalFault (s : State) : State :=
  let (s1, n) := s.takeFree
  hfFault s1 1 ((Config.freeWord n).toNat % 65536)

/-- A transfer to an address (R364): from the partition to vendor code only through a call gate, by a call.
DEDUCED, log entry 25. -/
def hfTransfer (s : State) (pc : BitVec 15) (call : Bool) : State :=
  if s.hf.p && !inPartition pc && !(call && callGate pc) then hfFault s 3 pc.toNat
  else hfGo (if call then hfSet s 14 ((s.hf.pc + 1).setWidth 16) else s) pc

/-- A transfer to the address in a register; bit 15 raises ILLEGAL (R361).
DEDUCED, log entry 25; DESIGN CHOICE, log entry 26. -/
def hfTransferReg (s : State) (v : W16) (call : Bool) : State :=
  if v.getLsbD 15 then hfFault s 1 v.toNat else hfTransfer s (v.setWidth 15) call

/-! ### ALU (R362) and immediate operations (R361) -/

/-- An operation that writes NZCV. -/
def hfArith (c : HCond) (wd : Reg) (s : State) (op : State → W16 × Flags) : Out :=
  hfStep c s (fun x => let r := op x; hfResult x wd r.1 r.2)

/-- An operation that writes NZ. -/
def hfLogic (c : HCond) (wd : Reg) (s : State) (op : State → W16) : Out :=
  hfStep c s (fun x => let v := op x; hfResult x wd v (nzOf v (hfFlags x)))

def execHfAdd (c : HCond) (wd wa wb : Reg) (s : State) : Out :=
  hfArith c wd s (fun x => addWith (hfReg x wa) (hfReg x wb) false)
def execHfAdc (c : HCond) (wd wa wb : Reg) (s : State) : Out :=
  hfArith c wd s (fun x => addWith (hfReg x wa) (hfReg x wb) x.hf.c)
def execHfSub (c : HCond) (wd wa wb : Reg) (s : State) : Out :=
  hfArith c wd s (fun x => subWith (hfReg x wa) (hfReg x wb) true)
def execHfSbc (c : HCond) (wd wa wb : Reg) (s : State) : Out :=
  hfArith c wd s (fun x => subWith (hfReg x wa) (hfReg x wb) x.hf.c)
def execHfAnd (c : HCond) (wd wa wb : Reg) (s : State) : Out := hfLogic c wd s (fun x => hfReg x wa &&& hfReg x wb)
def execHfOr (c : HCond) (wd wa wb : Reg) (s : State) : Out := hfLogic c wd s (fun x => hfReg x wa ||| hfReg x wb)
def execHfXor (c : HCond) (wd wa wb : Reg) (s : State) : Out := hfLogic c wd s (fun x => hfReg x wa ^^^ hfReg x wb)
def execHfAndn (c : HCond) (wd wa wb : Reg) (s : State) : Out := hfLogic c wd s (fun x => hfReg x wa &&& ~~~(hfReg x wb))
def execHfMov (c : HCond) (wd wa : Reg) (s : State) : Out := hfStep c s (fun x => hfNext (hfSet x wd (hfReg x wa)))
def execHfNot (c : HCond) (wd wa : Reg) (s : State) : Out := hfLogic c wd s (fun x => ~~~(hfReg x wa))
def execHfNeg (c : HCond) (wd wa : Reg) (s : State) : Out := hfArith c wd s (fun x => subWith 0 (hfReg x wa) true)

/-- A shift or rotation by an amount: NZ, and C as R217 gives it. -/
def hfShift (k : ShiftKind) (c : HCond) (wd wa : Reg) (s : State) (amount : State → Nat) : Out :=
  hfArith c wd s (fun x =>
    let a := hfReg x wa
    let r := shiftResult k a (amount x)
    (r, { nzOf r (hfFlags x) with c := shiftCarry k a (amount x) x.hf.c }))

/-- WB[4:0] and WB[3:0]. -/
def shAmount (wb : Reg) (x : State) : Nat := bitsOf (hfReg x wb).toNat 4 0
def rotAmount (wb : Reg) (x : State) : Nat := bitsOf (hfReg x wb).toNat 3 0

def execHfLsl (c : HCond) (wd wa wb : Reg) (s : State) : Out := hfShift .lsl c wd wa s (shAmount wb)
def execHfLsr (c : HCond) (wd wa wb : Reg) (s : State) : Out := hfShift .lsr c wd wa s (shAmount wb)
def execHfAsr (c : HCond) (wd wa wb : Reg) (s : State) : Out := hfShift .asr c wd wa s (shAmount wb)
def execHfRol (c : HCond) (wd wa wb : Reg) (s : State) : Out := hfShift .rol c wd wa s (rotAmount wb)
def execHfRor (c : HCond) (wd wa wb : Reg) (s : State) : Out := hfShift .ror c wd wa s (rotAmount wb)

def execHfMul (c : HCond) (wd wa wb : Reg) (s : State) : Out := hfLogic c wd s (fun x => hfReg x wa * hfReg x wb)
def execHfMulhu (c : HCond) (wd wa wb : Reg) (s : State) : Out :=
  hfLogic c wd s (fun x => BitVec.ofNat 16 ((hfReg x wa).toNat * (hfReg x wb).toNat / 65536))

/-- A division: a zero divisor writes 0xFFFF and sets V (R362).
DEDUCED, log entry 28. -/
def hfDivide (c : HCond) (wd wb : Reg) (s : State) (op : State → W16) : Out :=
  hfArith c wd s (fun x =>
    if hfReg x wb = 0 then (0xFFFF, { nzOf 0xFFFF#16 (hfFlags x) with v := true }) else (op x, nzOf (op x) (hfFlags x)))

def execHfDivu (c : HCond) (wd wa wb : Reg) (s : State) : Out := hfDivide c wd wb s (fun x => hfReg x wa / hfReg x wb)
def execHfRemu (c : HCond) (wd wa wb : Reg) (s : State) : Out := hfDivide c wd wb s (fun x => hfReg x wa % hfReg x wb)

def execHfAddi (c : HCond) (wd wa : Reg) (imm : BitVec 14) (s : State) : Out :=
  hfArith c wd s (fun x => addWith (hfReg x wa) (imm.signExtend 16) false)
def execHfAndi (c : HCond) (wd wa : Reg) (imm : BitVec 14) (s : State) : Out :=
  hfLogic c wd s (fun x => hfReg x wa &&& imm.setWidth 16)
def execHfOri (c : HCond) (wd wa : Reg) (imm : BitVec 14) (s : State) : Out :=
  hfLogic c wd s (fun x => hfReg x wa ||| imm.setWidth 16)
def execHfXori (c : HCond) (wd wa : Reg) (imm : BitVec 14) (s : State) : Out :=
  hfLogic c wd s (fun x => hfReg x wa ^^^ imm.setWidth 16)

def execHfCmpi (c : HCond) (wa : Reg) (imm : BitVec 14) (s : State) : Out :=
  hfStep c s (fun x => hfNext (hfPutFlags x (subFlags (hfReg x wa) (imm.signExtend 16)).2))
def execHfMovi (c : HCond) (wd : Reg) (imm : W16) (s : State) : Out := hfStep c s (fun x => hfNext (hfSet x wd imm))
def execHfCmp (c : HCond) (wa wb : Reg) (s : State) : Out :=
  hfStep c s (fun x => hfNext (hfPutFlags x (subFlags (hfReg x wa) (hfReg x wb)).2))
def execHfCmn (c : HCond) (wa wb : Reg) (s : State) : Out :=
  hfStep c s (fun x => hfNext (hfPutFlags x (addWith (hfReg x wa) (hfReg x wb) false).2))
def execHfTst (c : HCond) (wa wb : Reg) (s : State) : Out :=
  hfStep c s (fun x => hfNext (hfPutFlags x (nzOf (hfReg x wa &&& hfReg x wb) (hfFlags x))))

/-! ### Data space (R32-R41, R364) -/

/-- Message RAM word that a data address shows (R33, R34). -/
def msgAddr (s : State) (a : Nat) : Nat := s.hf.bank.toNat * 16384 + (a - 0xC000)

/-- A data access with P = 1 is permitted (R364).
DEDUCED, log entry 29. -/
def dataPermitted (s : State) (a : Nat) (write : Bool) : Bool :=
  if a < 0x8000 then decide (0x4000 ≤ a)
  else if a < 0xC000 then s.hf.perm4.getLsbD (if write then 9 else 8)
  else s.hf.perm4.getLsbD s.hf.bank.toNat

/-- The word at a data address; none for a bus error (R36, R40). -/
def dataRead (s : State) (a : Nat) : State × Option W16 :=
  if a < 0x8000 then (s, some (memGet s.hf.ram a))
  else if a < 0xC000 then winReadEffect s ((a - 0x8000) / 4) (a % 4)
  else (s, some (memGet s.msg (msgAddr s a)))

/-- A word written to a data address; false for a bus error. -/
def dataWrite (s : State) (a : Nat) (v : W16) : State × Bool :=
  if a < 0x8000 then (s.modHf (fun h => { h with ram := memSet h.ram a v }), true)
  else if a < 0xC000 then winWriteEffect s ((a - 0x8000) / 4) (a % 4) v
  else (agentWrite s (msgAddr s a) v, true)

/-- WA + sext(IMM14), modulo 65,536. -/
def dataAddr (s : State) (wa : Reg) (imm : BitVec 14) : Nat := (hfReg s wa + imm.signExtend 16).toNat

def execHfLd (c : HCond) (wd wa : Reg) (imm : BitVec 14) (s : State) : Out :=
  hfStep c s (fun x =>
    let a := dataAddr x wa imm
    if x.hf.p && !dataPermitted x a false then hfFault x 3 a
    else match dataRead x a with
      | (x1, some v) => hfNext (hfSet x1 wd v)
      | (x1, none) => hfFault x1 2 a)

def execHfSt (c : HCond) (wd wa : Reg) (imm : BitVec 14) (s : State) : Out :=
  hfStep c s (fun x =>
    let a := dataAddr x wa imm
    if x.hf.p && !dataPermitted x a true then hfFault x 3 a
    else match dataWrite x a (hfReg x wd) with
      | (x1, true) => hfNext x1
      | (x1, false) => hfFault x1 2 a)

/-- Instruction address of LDI: WA + IMM14[12:0], modulo 32,768. -/
def ldiAddr (s : State) (wa : Reg) (imm : BitVec 14) : Nat := ((hfReg s wa).toNat + bitsOf imm.toNat 12 0) % 32768

def execHfLdi (c : HCond) (wd wa : Reg) (imm : BitVec 14) (s : State) : Out :=
  hfStep c s (fun x =>
    let a := ldiAddr x wa imm
    if x.hf.p && decide (a < 0x6000) then hfFault x 3 a
    else
      let w : W32 := memGet x.hf.imem a
      hfNext (hfSet x wd (if imm.getLsbD 13 then w.extractLsb' 16 16 else w.setWidth 16)))

/-! ### I/O space (R44-R46, R364) -/

/-- WA + zext(IMM14), modulo 65,536. -/
def ioAddr (s : State) (wa : Reg) (imm : BitVec 14) : Nat := (hfReg s wa + imm.setWidth 16).toNat

def execHfIn (c : HCond) (wd wa : Reg) (imm : BitVec 14) (s : State) : Out :=
  hfStep c s (fun x =>
    let a := ioAddr x wa imm
    if x.hf.p && engineInterface a then hfNext (hfSet (x.modHf (fun h => { h with portIn := 0 })) wd 0)
    else if x.hf.p && !portPermitted x a false then hfFault x 3 a
    else
      let r := portRead (openBlockGate x a) a
      hfNext (hfSet r.1 wd r.2))

/-- The port address of WDT.KEY (R318). -/
def wdtKey : Nat := 0x0E00

/-- OUT: the instruction completes with its write (R46). A key stays at the seam while the watchdog's counting clock stands (R314). -/
def execHfOut (c : HCond) (wd wa : Reg) (imm : BitVec 14) (s : State) : Out :=
  hfStep c s (fun x =>
    let a := ioAddr x wa imm
    if x.hf.p && !portPermitted x a true then hfFault x 3 a
    else if a == wdtKey && x.wdt.stopped then { x with wdt := { x.wdt with held := true } }
    else portWrite (hfNext x) a (hfReg x wd) x.hf.p)

/-! ### Transfers and the system instructions (R361, R364, R366, R367) -/

def execHfB (c : HCond) (target : BitVec 15) (s : State) : Out := hfStep c s (fun x => hfTransfer x target false)
def execHfCall (c : HCond) (target : BitVec 15) (s : State) : Out := hfStep c s (fun x => hfTransfer x target true)
def execHfJr (c : HCond) (wa : Reg) (s : State) : Out := hfStep c s (fun x => hfTransferReg x (hfReg x wa) false)
def execHfCallr (c : HCond) (wa : Reg) (s : State) : Out := hfStep c s (fun x => hfTransferReg x (hfReg x wa) true)
def execHfRet (c : HCond) (s : State) : Out := hfStep c s (fun x => hfTransferReg x (hfReg x 14) false)

/-- A frame popped: everything that the entry pushed comes back together (R367). -/
def popFrame (s : State) (f : HfFrame) (rest : List HfFrame) : State :=
  s.modHf (fun h => { h with
    pc := f.pc, n := f.n, z := f.z, c := f.c, v := f.v, p := f.p, ie := f.ie, level := f.level, bank := f.bank, frames := rest })

def execHfReti (c : HCond) (s : State) : Out :=
  hfStep c s (fun x =>
    match x.hf.frames with
    | [] => hfIllegalFault x
    | f :: rest => if x.hf.p && !inPartition f.pc then hfFault x 3 f.pc.toNat else popFrame x f rest)

def execHfEi (c : HCond) (s : State) : Out :=
  hfStep c s (fun x => hfNext (x.modHf (fun h => if h.p then { h with imask := 0 } else { h with ie := true })))
def execHfDi (c : HCond) (s : State) : Out :=
  hfStep c s (fun x => hfNext (x.modHf (fun h => if h.p then { h with imask := BitVec.allOnes 6 } else { h with ie := false })))
def execHfWait (c : HCond) (s : State) : Out := hfStep c s (fun x => hfNext (x.modHf (fun h => { h with waiting := true })))
def execHfSwi (c : HCond) (n : Fin 6) (s : State) : Out :=
  hfStep c s (fun x => hfNext (x.modHf (fun h => { h with swi := h.swi ||| (1#6 <<< n.val) })))

/-- HF_ILLEGAL: an encoding error raises ILLEGAL whatever the condition (R360). -/
def execHfIllegal (word : W32) (s : State) : Out :=
  if hfWordIllegal word then hfStep .al s hfIllegalFault else .next s

/-! ### Entry to a vector (R366) -/

/-- Vector `v` can be taken now.
DESIGN CHOICE, log entry 30. -/
def vectorEligible (s : State) (v : Nat) : Bool :=
  let h := s.hf
  vectorPending s v && (decide (v ≤ 5) || h.ien.getLsbD v) && (decide (v ≤ 5) || h.ie) && decide (v < h.level) &&
    !(decide (26 ≤ v) && h.imask.getLsbD (v - 26))

/-- INTERRUPT_ENTRY: the eligible vector of the lowest number is entered; a software interrupt is pending until it is taken.
DESIGN CHOICE, log entries 30, 95. -/
def execInterruptEntry (s : State) : Out :=
  .next (
    if s.hf.dead || s.hf.halted || s.wdt.held || !s.clk.lock then s
    else match (List.range 32).find? (vectorEligible s) with
      | none => s
      | some v => enterVector ((openGate s 5).modHf (fun h => { h with swi := if 26 ≤ v then h.swi &&& ~~~(1#6 <<< (v - 26)) else h.swi })) v)

/-! ### Service calls (R371) -/

/-- A request that vendor firmware drops (R529).
DESIGN CHOICE, log entry 32. -/
def dropRequest (s : State) (q : SvcReq) : State :=
  postTask s 0x0306 q.task.val (leBytes 1 q.task.val ++ leBytes 1 0 ++ leBytes 2 q.code.toNat ++ leBytes 4 q.cycle.toNat)

/-- Vendor firmware acts on the oldest request where its code is one of those that `mine` names, and only on the first for its task,
cycle number and ordinal (R296, R371). The request leaves the queue with HF_SVC_POP.
DESIGN CHOICE, log entry 32. -/
def serveRequest (s : State) (mine : Nat → Bool) (act : State → SvcReq → State) : Out :=
  .next (
    match s.hf.svcq with
    | [] => s
    | q :: _ =>
      if !mine q.code.toNat || s.hf.served.contains (q.task, q.cycle, q.ord) then s
      else act (s.modHf (fun h => { h with served := (q.task, q.cycle, q.ord) :: h.served })) q)

/-- Argument Xi of a request. -/
def argOf (q : SvcReq) (i : Nat) : Nat := (q.x.getD i 0).toNat

/-- SVC_EVENT: code 0x0001; it also drops a vendor code that R371 does not define.
DESIGN CHOICE, log entry 32; DEDUCED, log entry 33. -/
def execSvcEvent (s : State) : Out :=
  serveRequest s (fun code => decide (code < 0x8000) && code != 2 && code != 3) (fun x q =>
    let code := argOf q 0 % 65536
    if q.code.toNat ≠ 1 ∨ code < 0x1000 then dropRequest x q
    else postEvent x code (bitsOf (argOf q 0) 18 16) (0x40 + q.task.val)
      (leBytes 4 (argOf q 1) ++ leBytes 4 (argOf q 2) ++ leBytes 4 (argOf q 3)))

/-- SVC_CALREAD: the calendar time, zeros from a locked interface (R510), enters the edit queue as the edits of two words. The manual does not give
their layout.
DESIGN CHOICE, log entry 34. -/
def execSvcCalread (s : State) : Out :=
  serveRequest s (fun code => code == 2) (fun x q =>
    let l : LaneId := if q.laneB then .b else .a
    let a := argOf q 0 % 2 ^ 22
    let now := if x.bkp.locked then 0 else calStamp x.bkp.cal
    (firmwareEdit (firmwareEdit x l a (Config.calWord now 0)).1 l (a + 1) (Config.calWord now 1)).1)

/-- SVC_STORE: a pillar store is requested (R497). -/
def execSvcStore (s : State) : Out := serveRequest s (fun code => code == 3) (fun x _ => requestStore x)

/-- SVC_INTEGRATOR: a code of 0x8000 or above goes to the integrator partition by SWI 0, repeats too, which the partition knows by their
task, cycle number and ordinal (R296); without a partition that runs, vendor firmware drops it, once.
DEDUCED, log entry 35. -/
def execSvcIntegrator (s : State) : Out :=
  if s.hf.intPart && !s.hf.intStop then
    .next (match s.hf.svcq with
      | [] => s
      | q :: _ => if q.code.toNat < 0x8000 then s else s.modHf (fun h => { h with swi := h.swi ||| 1#6 }))
  else serveRequest s (fun code => decide (0x8000 ≤ code)) dropRequest

end Sys2Proof.Machine
end

