-- ==== Sys2Proof/Machine/Operands.lean ====
section
/-! DEFINITION. Operand forms of the lane instructions: registers and pairs (R183, R210), memory words and double words (R191,
R211), single bits (R192), and the records of timers and counters (R222, R225). -/

namespace Sys2Proof.Machine

open Sys2Proof

/-! ### Registers -/

/-- A general register. -/
def Ctx.get (c : Ctx) (r : Reg) : W36 := c.x[r]

/-- A general register written; no register is hard-wired (R184). -/
def Ctx.put (c : Ctx) (r : Reg) (v : W36) : Ctx := { c with x := c.x.set r v }

/-- A field that names a pair names its even register (R210). -/
def oddPair (r : Reg) : Bool := r.val % 2 == 1

/-- The pair Xn:Xn+1 (R210): Xn holds bits [35:0]. -/
def Ctx.getPair (c : Ctx) (r : Reg) : W72 := c.x[r + 1] ++ c.x[r]

/-- A pair written. -/
def Ctx.putPair (c : Ctx) (r : Reg) (v : W72) : Ctx :=
  { c with x := (c.x.set r (v.setWidth 36)).set (r + 1 : Reg).val (v.extractLsb' 36 36) (r + 1 : Reg).isLt }

/-- The flags of a lane. -/
def Ctx.flags (c : Ctx) : Flags := ⟨c.n, c.z, c.c, c.v⟩

/-- The flags written. -/
def Ctx.withFlags (c : Ctx) (f : Flags) : Ctx := { c with n := f.n, z := f.z, c := f.c, v := f.v }

/-- N and Z from a result, C and V unchanged (R213). -/
def Ctx.nz {w : Nat} (c : Ctx) (r : BitVec w) : Ctx := c.withFlags (nzOf r c.flags)

/-- An entry pushed on the bit stack (R197). -/
def Ctx.push (c : Ctx) (b : Bool) : Except Nat Ctx :=
  if c.stack.length < 8 then .ok { c with stack := b :: c.stack } else .error 0x09

/-- The top entry removed from the bit stack. -/
def Ctx.pop (c : Ctx) : Except Nat (Bool × Ctx) :=
  match c.stack with
  | [] => .error 0x0A
  | b :: r => .ok (b, { c with stack := r })

/-- The amount of a shift (R217). -/
def shiftAmount (c : Ctx) : ShAmt → Nat
  | .reg xb => (c.get xb).toNat % 128
  | .imm s => s.toNat

/-- Offset of a memory word operand (R211): the indexed form is computed in 37 bits, so it does not wrap. -/
def memOffset (c : Ctx) : MemOff → Nat
  | .disp d => d.toNat
  | .idx xi d => (c.get xi).toNat + d.toNat

/-! ### Registers of the running task in State -/

/-- The registers of a lane changed. -/
def State.modCtx (s : State) (l : LaneId) (f : Ctx → Ctx) : State := s.modLane l (fun x => { x with ctx := f x.ctx })

/-- The registers of a lane. -/
def State.ctx (s : State) (l : LaneId) : Ctx := (s.lane l).ctx

/-! ### Memory operands -/

/-- One word read through a selector. -/
def loadWord (s : State) (l : LaneId) (t : Task) (sel : Sel) (off : Nat) : Run W36 :=
  match checkAccess s l (s.ctx l).sel[sel] off true false false 1 with
  | .error e => .error e
  | .ok (a, d) => readAt s l t d a

/-- One word written through a selector. -/
def storeWord (s : State) (l : LaneId) (t : Task) (sel : Sel) (off : Nat) (v : W36) : Run Unit :=
  match checkAccess s l (s.ctx l).sel[sel] off false true false 1 with
  | .error e => .error e
  | .ok (a, d) => writeAt s l t d a v

/-- Both words of a double word checked before either is read or written (R211). -/
def checkDouble (s : State) (l : LaneId) (sel : Sel) (off : Nat) (rd wr : Bool) : Except Stop (Nat × SegRec) :=
  checkAccess s l (s.ctx l).sel[sel] off rd wr true 2

/-- A double word read: lower address holds bits [35:0] (R182). -/
def loadDouble (s : State) (l : LaneId) (t : Task) (sel : Sel) (off : Nat) : Run W72 :=
  match checkDouble s l sel off true false with
  | .error e => .error e
  | .ok (a, d) =>
    match readAt s l t d a with
    | .error e => .error e
    | .ok (lo, s1) =>
      match readAt s1 l t d (a + 1) with
      | .error e => .error e
      | .ok (hi, s2) => .ok (hi ++ lo, s2)

/-- Consecutive words read in ascending order. -/
def readWords (s : State) (l : LaneId) (t : Task) (d : SegRec) : Nat → Nat → Run (List W36)
  | _, 0 => .ok ([], s)
  | a, n + 1 =>
    match readAt s l t d a with
    | .error e => .error e
    | .ok (v, s1) =>
      match readWords s1 l t d (a + 1) n with
      | .error e => .error e
      | .ok (vs, s2) => .ok (v :: vs, s2)

/-- A double word written. -/
def storeDouble (s : State) (l : LaneId) (t : Task) (sel : Sel) (off : Nat) (v : W72) : Run Unit :=
  match checkDouble s l sel off false true with
  | .error e => .error e
  | .ok (a, d) => writeWords s l t d a [v.setWidth 36, v.extractLsb' 36 36]

/-- The four words of a timer or counter record checked in ascending order (R222, R225, R239). -/
def checkRecord (s : State) (l : LaneId) (sel : Sel) (off : Nat) : Except Stop (Nat × SegRec) :=
  let check := fun (i : Nat) => checkAccess s l (s.ctx l).sel[sel] (off + i) true true (i == 0) 1
  match check 0 with
  | .error e => .error e
  | .ok (a, d) =>
    match check 1 with
    | .error e => .error e
    | .ok _ =>
      match check 2 with
      | .error e => .error e
      | .ok _ =>
        match check 3 with
        | .error e => .error e
        | .ok _ => .ok (a, d)

/-! ### Instruction shapes -/

/-- A bit instruction that reads its bit (R191, R195). -/
def bitRead (l : LaneId) (c : Cond) (seg : Sel) (word : BitVec 17) (bit : BitVec 6) (f : Ctx → Bool → Except Nat Ctx)
    (s : State) : State :=
  laneStep l c { illegal := decide (36 ≤ bit.toNat) } (fun t _ s0 =>
    match loadWord s0 l t seg word.toNat with
    | .error e => .error e
    | .ok (w, s1) =>
      match f (s1.ctx l) (w.getLsbD bit.toNat) with
      | .ok x => .ok (.seq, s1.modCtx l (fun _ => x))
      | .error code => .error (.exc code 0 false)) s

/-- One bit of a word replaced. -/
def putBit (w : W36) (i : Nat) (b : Bool) : W36 :=
  if b then w ||| (1#36 <<< i) else w &&& ~~~(1#36 <<< i)

/-- A bit instruction that reads its word and writes it back with the bit replaced (R192, R195). -/
def bitWrite (l : LaneId) (c : Cond) (seg : Sel) (word : BitVec 17) (bit : BitVec 6) (f : Ctx → Bool → Ctx × Bool)
    (s : State) : State :=
  laneStep l c { illegal := decide (36 ≤ bit.toNat) } (fun t _ s0 =>
    match checkAccess s0 l (s0.ctx l).sel[seg] word.toNat true true false 1 with
    | .error e => .error e
    | .ok (a, d) =>
      match readAt s0 l t d a with
      | .error e => .error e
      | .ok (w, s1) =>
        let r := f (s1.ctx l) (w.getLsbD bit.toNat)
        match writeAt s1 l t d a (putBit w bit.toNat r.2) with
        | .error e => .error e
        | .ok (_, s2) => .ok (.seq, s2.modCtx l (fun _ => r.1))) s

/-- A register instruction that cannot raise an exception of its own. -/
def regStep (l : LaneId) (c : Cond) (illegal : Bool) (f : Ctx → Ctx) (s : State) : State :=
  ctxStep l c illegal (fun x => .ok (f x)) s

end Sys2Proof.Machine
end

