-- ==== Sys2Proof/Machine/LaneBit.lean ====
section
/-! DEFINITION. The bit-logic instructions of a lane (R195, R196). -/

namespace Sys2Proof.Machine

open Sys2Proof

/-- RLR replaced. -/
def Ctx.setRlr (c : Ctx) (b : Bool) : Ctx := { c with rlr := b }

/-- NOP: no operation (R195). -/
def execNop (l : LaneId) (c : Cond) (s : State) : Out := .next (regStep l c false id s)

/-- LD: RLR := b (R195). -/
def execLd (l : LaneId) (c : Cond) (seg : Sel) (word : BitVec 17) (bit : BitVec 6) (s : State) : Out :=
  .next (bitRead l c seg word bit (fun x b => .ok (x.setRlr b)) s)

/-- LDN: RLR := not b (R195). -/
def execLdn (l : LaneId) (c : Cond) (seg : Sel) (word : BitVec 17) (bit : BitVec 6) (s : State) : Out :=
  .next (bitRead l c seg word bit (fun x b => .ok (x.setRlr !b)) s)

/-- AND: RLR := RLR and b (R195). -/
def execAnd (l : LaneId) (c : Cond) (seg : Sel) (word : BitVec 17) (bit : BitVec 6) (s : State) : Out :=
  .next (bitRead l c seg word bit (fun x b => .ok (x.setRlr (x.rlr && b))) s)

/-- ANDN: RLR := RLR and not b (R195). -/
def execAndn (l : LaneId) (c : Cond) (seg : Sel) (word : BitVec 17) (bit : BitVec 6) (s : State) : Out :=
  .next (bitRead l c seg word bit (fun x b => .ok (x.setRlr (x.rlr && !b))) s)

/-- OR: RLR := RLR or b (R195). -/
def execOr (l : LaneId) (c : Cond) (seg : Sel) (word : BitVec 17) (bit : BitVec 6) (s : State) : Out :=
  .next (bitRead l c seg word bit (fun x b => .ok (x.setRlr (x.rlr || b))) s)

/-- ORN: RLR := RLR or not b (R195). -/
def execOrn (l : LaneId) (c : Cond) (seg : Sel) (word : BitVec 17) (bit : BitVec 6) (s : State) : Out :=
  .next (bitRead l c seg word bit (fun x b => .ok (x.setRlr (x.rlr || !b))) s)

/-- XOR: RLR := RLR xor b (R195). -/
def execXor (l : LaneId) (c : Cond) (seg : Sel) (word : BitVec 17) (bit : BitVec 6) (s : State) : Out :=
  .next (bitRead l c seg word bit (fun x b => .ok (x.setRlr (x.rlr ^^ b))) s)

/-- XORN: RLR := RLR xor not b (R195). -/
def execXorn (l : LaneId) (c : Cond) (seg : Sel) (word : BitVec 17) (bit : BitVec 6) (s : State) : Out :=
  .next (bitRead l c seg word bit (fun x b => .ok (x.setRlr (x.rlr ^^ !b))) s)

/-- ST: b := RLR (R195). -/
def execSt (l : LaneId) (c : Cond) (seg : Sel) (word : BitVec 17) (bit : BitVec 6) (s : State) : Out :=
  .next (bitWrite l c seg word bit (fun x _ => (x, x.rlr)) s)

/-- STN: b := not RLR (R195). -/
def execStn (l : LaneId) (c : Cond) (seg : Sel) (word : BitVec 17) (bit : BitVec 6) (s : State) : Out :=
  .next (bitWrite l c seg word bit (fun x _ => (x, !x.rlr)) s)

/-- SET: b := 1 (R195). -/
def execSet (l : LaneId) (c : Cond) (seg : Sel) (word : BitVec 17) (bit : BitVec 6) (s : State) : Out :=
  .next (bitWrite l c seg word bit (fun x _ => (x, true)) s)

/-- CLR: b := 0 (R195). -/
def execClr (l : LaneId) (c : Cond) (seg : Sel) (word : BitVec 17) (bit : BitVec 6) (s : State) : Out :=
  .next (bitWrite l c seg word bit (fun x _ => (x, false)) s)

/-- PED: t := RLR and not b; b := RLR; RLR := t (R195). -/
def execPed (l : LaneId) (c : Cond) (seg : Sel) (word : BitVec 17) (bit : BitVec 6) (s : State) : Out :=
  .next (bitWrite l c seg word bit (fun x b => (x.setRlr (x.rlr && !b), x.rlr)) s)

/-- NED: t := (not RLR) and b; b := RLR; RLR := t (R195). -/
def execNed (l : LaneId) (c : Cond) (seg : Sel) (word : BitVec 17) (bit : BitVec 6) (s : State) : Out :=
  .next (bitWrite l c seg word bit (fun x b => (x.setRlr (!x.rlr && b), x.rlr)) s)

/-- LDP: push(RLR); RLR := b (R195, R197). -/
def execLdp (l : LaneId) (c : Cond) (seg : Sel) (word : BitVec 17) (bit : BitVec 6) (s : State) : Out :=
  .next (bitRead l c seg word bit (fun x b => (x.push x.rlr).map (·.setRlr b)) s)

/-- LDNP: push(RLR); RLR := not b (R195, R197). -/
def execLdnp (l : LaneId) (c : Cond) (seg : Sel) (word : BitVec 17) (bit : BitVec 6) (s : State) : Out :=
  .next (bitRead l c seg word bit (fun x b => (x.push x.rlr).map (·.setRlr !b)) s)

/-- PUSH: push(RLR) (R196). -/
def execPush (l : LaneId) (c : Cond) (s : State) : Out := .next (ctxStep l c false (fun x => x.push x.rlr) s)

/-- POP: RLR := pop (R196). -/
def execPop (l : LaneId) (c : Cond) (s : State) : Out := .next (ctxStep l c false (fun x => (x.pop).map (fun p => p.2.setRlr p.1)) s)

/-- ANDP: RLR := RLR and pop (R196). -/
def execAndp (l : LaneId) (c : Cond) (s : State) : Out := .next (ctxStep l c false (fun x => (x.pop).map (fun p => p.2.setRlr (x.rlr && p.1))) s)

/-- ORP: RLR := RLR or pop (R196). -/
def execOrp (l : LaneId) (c : Cond) (s : State) : Out := .next (ctxStep l c false (fun x => (x.pop).map (fun p => p.2.setRlr (x.rlr || p.1))) s)

/-- XORP: RLR := RLR xor pop (R196). -/
def execXorp (l : LaneId) (c : Cond) (s : State) : Out := .next (ctxStep l c false (fun x => (x.pop).map (fun p => p.2.setRlr (x.rlr ^^ p.1))) s)

/-- SETL: RLR := 1 (R196). -/
def execSetl (l : LaneId) (c : Cond) (s : State) : Out := .next (ctxStep l c false (fun x => .ok (x.setRlr true)) s)

/-- CLRL: RLR := 0 (R196). -/
def execClrl (l : LaneId) (c : Cond) (s : State) : Out := .next (ctxStep l c false (fun x => .ok (x.setRlr false)) s)

/-- NOTL: RLR := not RLR (R196). -/
def execNotl (l : LaneId) (c : Cond) (s : State) : Out := .next (ctxStep l c false (fun x => .ok (x.setRlr !x.rlr)) s)

/-- LDXB: RLR := X[XREG] bit BIT (R195). -/
def execLdxb (l : LaneId) (c : Cond) (xreg : Reg) (bit : BitVec 6) (s : State) : Out :=
  .next (regStep l c (decide (36 ≤ bit.toNat)) (fun x => x.setRlr ((x.get xreg).getLsbD bit.toNat)) s)

/-- STXB: X[XREG] bit BIT := RLR (R195). -/
def execStxb (l : LaneId) (c : Cond) (xreg : Reg) (bit : BitVec 6) (s : State) : Out :=
  .next (regStep l c (decide (36 ≤ bit.toNat)) (fun x => x.put xreg (putBit (x.get xreg) bit.toNat x.rlr)) s)

/-- TSTB: Z := not b (R195). -/
def execTstb (l : LaneId) (c : Cond) (seg : Sel) (word : BitVec 17) (bit : BitVec 6) (s : State) : Out :=
  .next (bitRead l c seg word bit (fun x b => .ok { x with z := !b }) s)

end Sys2Proof.Machine
end

