-- ==== Sys2Proof/Machine/LaneCtl.lean ====
section
/-! DEFINITION. Lane instructions that act outside the lane, or read what the sequencer latched (R230-R237). -/

namespace Sys2Proof.Machine

open Sys2Proof

/-! ### Outside effects (R230) -/

/-- The outside effect of an instruction: at once in a lane that stands alone, and once for the pair when Lane B retires the same
instruction at the same count with the same operands. A part unpaired by a debug session acts through Lane A alone (R299).
DESIGN CHOICE, log entry 18; DEDUCED, log entry 19. -/
def outside (s : State) (l : LaneId) (t : Task) (c : LCycle) (eff : Effect) (perform : State → Run Flow) : Run Flow :=
  let n := (s.lane l).count + 1
  if isSplit s then perform s
  else if s.asy.unpaired then (match l with | .a => perform s | .b => .ok (.seq, s))
  else match l with
    | .a => .ok (.seq, { s with asy := { s.asy with effects := s.asy.effects ++ [⟨t, c.number, n, eff⟩] } })
    | .b =>
      match excHere s .b, s.asy.effects with
      | some _, _ => .ok (.seq, s)
      | none, e :: rest =>
        if e.count = n ∧ e.task = t ∧ e.eff = eff then perform { s with asy := { s.asy with effects := rest } }
        else .error (.abandoned (laneMismatch (retire l t .seq s) 5 t c.number n))
      | none, [] => .error (.abandoned (laneMismatch (retire l t .seq s) 5 t c.number n))

/-- An outside effect that always retires its instruction. -/
def outsideSimple (s : State) (l : LaneId) (t : Task) (c : LCycle) (eff : Effect) (perform : State → State) : Run Flow :=
  outside s l t c eff (fun s1 => .ok (.seq, perform s1))

/-! ### Trams (R231, R250) -/

/-- The four descriptor words read in ascending order, each under its own check (R250). -/
def readDescriptor (s : State) (l : LaneId) (t : Task) (sel : Sel) (off : Nat) : Nat → Run (List W36)
  | 0 => .ok ([], s)
  | n + 1 =>
    match checkAccess s l (s.ctx l).sel[sel] off true false false 1 with
    | .error e => .error e
    | .ok (a, d) =>
      match readAt s l t d a with
      | .error e => .error e
      | .ok (v, s1) =>
        match readDescriptor s1 l t sel (off + 1) n with
        | .error e => .error e
        | .ok (vs, s2) => .ok (v :: vs, s2)

/-- The DESC records of a descriptor issued (R282). -/
def foldDescriptor (x : Lane) (t : Task) (ch : TramCh) (ws : List W36) : Lane :=
  ((List.range ws.length).zip ws).foldl (fun acc p =>
    foldRecord acc t (commitRecord 3 t (ch.val * 2 ^ 108 + p.1 * 2 ^ 106 + p.2.toNat))) x

/-- The lane-space words that a transfer has written (R253). -/
def destinationWords (s : State) (l : LaneId) (t : Task) (ch : TramCh) : List Nat :=
  let x := s.tram.ch[ch]
  if x.desc.dstRam then []
  else match descOf s l ((taskSelectors s l t).toArray.getD x.desc.dstSel 0) with
    | some (_, g) => (List.range (x.k - x.desc.first)).map (fun i => g.base + x.desc.dstOff + x.desc.first + i)
    | none => []

/-- The lane-space words that a descriptor's transfer writes: first word and number of words (R253). -/
def transferRange (s : State) (l : LaneId) (t : Task) (d : TramDesc) : List (Nat × Nat) :=
  if d.dstRam then []
  else match descOf s l ((taskSelectors s l t).toArray.getD d.dstSel 0) with
    | some (_, g) => [(g.base + d.dstOff + d.first, d.count - d.first)]
    | none => []

/-- TSTART: starts channel CH with the descriptor that XA names (R231, R250). -/
def execTstart (l : LaneId) (c : Cond) (ch : TramCh) (xa : Reg) (s : State) : Out :=
  .next (laneStep l c { fence := true, effect := true } (fun t k s0 =>
    let v := ((s0.ctx l).get xa).toNat
    if 2 ^ 21 ≤ v then .error (.exc 0x05 0 false)
    else match readDescriptor s0 l t (Fin.ofNat 8 (v / 2 ^ 18)) (v % 2 ^ 18) 4 with
      | .error e => .error e
      | .ok (ws, s1) =>
        if ch ≠ t then .error (.exc 0x0D 0 false)
        else if k.tramBusy then .error (.exc 0x0E 0 false)
        else
          let s2 := s1.modLane l (fun x => (foldDescriptor x t ch ws).modCycle t (fun y =>
            { y with tramBusy := true, tramStarted := true, shadow := []
                     tramDst := y.tramDst ++ transferRange s1 l t (taskDescriptor ws)
                     moved := if k.tramStarted then y.moved ++ destinationWords s1 l t ch else y.moved }))
          outsideSimple s2 l t k (.tstart ch ws) (fun s3 => startTransfer s3 ch (taskDescriptor ws) ((s3.lane l).count + 1))) s)

/-- The tram status word (R258). -/
def statusWord (x : TramSt) : W36 := BitVec.ofNat 36 (x.code.toNat + 2 ^ 8 * bit x.fault + 2 ^ 9 * x.k)

/-- TWAIT: waits for channel CH and writes its status word into XD; what the transfer wrote counts as written by the task here
(R231, R253). -/
def execTwait (l : LaneId) (c : Cond) (ch : TramCh) (xd : Reg) (s : State) : Out :=
  .next (laneStep l c { fence := true } (fun t k s0 =>
    if ch ≠ t then .error (.exc 0x0D 0 false)
    else if k.tramBusy then .error (.stall .twait)
    else
      let ws := k.moved ++ (if k.tramStarted then destinationWords s0 l t ch else [])
      let s1 := s0.modLane l (fun x => x.modCycle t (fun y => { y with
        moved := [], tramStarted := false, tramDst := []
        uw := ws.map (fun a => (a, y.cur, memGet x.mem a)) ++ y.uw.filter (fun e => !(ws.contains e.1 && e.2.1 == y.cur)) }))
      .ok (.seq, s1.modCtx l (fun x => x.put xd (statusWord s0.tram.ch[ch])))) s)

/-! ### Tally (R232, R301-R309) -/

/-- TALLY KIND 0: the check-in. A verdict whose reaction is a fault ends the cycle here (R309). -/
def execTallyCheckIn (l : LaneId) (c : Cond) (s : State) : Out :=
  .next (laneStep l c { fence := true, effect := true } (fun t k s0 =>
    outside s0 l t k .checkIn (fun s1 =>
      match checkIn s1 t k.number k.tokenEn k.tokens with
      | (s2, some kind) =>
        .error (.abandoned (inOneClock s1 (taskFault s2 t k.number (verdictCode kind) false none k.pass.code (s0.ctx l).pc.toNat 0)))
      | (s2, none) => .ok (.seq, s2))) s)

/-- TALLY KIND 1: the token is kept with the instance that retires it (R170, R306). -/
def execTallyToken (l : LaneId) (c : Cond) (token : W16) (s : State) : Out :=
  .next (laneStep l c {} (fun t _ s0 =>
    .ok (.seq, s0.modCycle l t (fun k => { k with
      insts := listModify k.insts k.cur (fun i => { i with tokens := i.tokens ++ [token] }) }))) s)

/-! ### LCTL (R233) and FEAT (R204, R205, R234) -/

/-- An LCTL word that reads (R233). -/
def lctlWord (s : State) (t : Task) (c : LCycle) (index : Nat) : Option W36 :=
  let rec_ := fun (f : TaskRec → Nat) => BitVec.ofNat 36 (match taskRec s t with | some r => f r | none => 0)
  match index with
  | 0x000 => some (BitVec.ofNat 36 t.val)
  | 0x001 => some (c.number.setWidth 36)
  | 0x002 => some (BitVec.ofNat 36 (bit c.fc + 2 * bit c.fw))
  | 0x003 => some c.ovr
  | 0x004 => some c.fallback
  | 0x008 => some (rec_ (·.budget))
  | 0x009 => some (rec_ (·.delta))
  | 0x00A => some (rec_ (·.floor))
  | _ => none

/-- LCTL WARN_CLR: bit 0 clears the task's overrun warning (R233). -/
def warnClrEffect (s : State) (t : Task) (w : W36) : State :=
  if w.getLsbD 0 then s.modTask t (fun k => { k with ovrWarn := false }) else s

/-- LCTL HF_FLAG: bits [15:0] enter the task's Headframe flag word (R233). -/
def hfFlagEffect (s : State) (t : Task) (w : W36) : State :=
  notifySeam (s.modTask t (fun k => { k with hfFlag := k.hfFlag ||| w.setWidth 16 })) 15

/-- An LCTL write (R233). -/
def lctlWrite (s : State) (l : LaneId) (t : Task) (c : LCycle) (index : Nat) (w : W36) : Run Flow :=
  if index = 0x100 then outsideSimple s l t c (.warnClr w) (warnClrEffect · t w)
  else if index = 0x101 then outsideSimple s l t c (.hfFlag w) (hfFlagEffect · t w)
  else .error (.exc 0x0F 0 false)

/-- LCTL: a read writes the latched word into XD; a word that is not there in that direction raises LCTL_INDEX (R233). -/
def execLctlRead (l : LaneId) (c : Cond) (dirWrite : Bool) (xd : Reg) (index : BitVec 12) (s : State) : Out :=
  .next (laneStep l c { fence := dirWrite, effect := dirWrite } (fun t k s0 =>
    if dirWrite then lctlWrite s0 l t k index.toNat ((s0.ctx l).get xd)
    else match lctlWord s0 t k index.toNat with
      | some w => .ok (.seq, s0.modCtx l (fun x => x.put xd w))
      | none => .error (.exc 0x0F 0 false)) s)

/-- LCTL write of WARN_CLR (R233). -/
def execWarnClr (l : LaneId) (c : Cond) (xd : Reg) (s : State) : Out :=
  .next (laneStep l c { fence := true, effect := true } (fun t k s0 => lctlWrite s0 l t k 0x100 ((s0.ctx l).get xd)) s)

/-- LCTL write of HF_FLAG (R233). -/
def execHfFlag (l : LaneId) (c : Cond) (xd : Reg) (s : State) : Out :=
  .next (laneStep l c { fence := true, effect := true } (fun t k s0 => lctlWrite s0 l t k 0x101 ((s0.ctx l).get xd)) s)

/-- The feature registers (R204). -/
def featWord (s : State) (l : LaneId) (n : BitVec 2) : W36 :=
  match n.toNat with
  | 0 => BitVec.ofNat 36 (2 ^ 20 * (generation s % 65536) + 2 ^ 4 * fusePartGen s + 2 ^ 3 * bit (fuseSplitOk s) +
      2 ^ 2 * bit (isSplit s) + 2 * bit (isSplit s && l == .b))
  | 1 => BitVec.ofNat 36 (2 ^ 32 * 7 + 2 ^ 23 * 256 + 2 ^ 18 * 21 + 2 ^ 13 * 17 + 2 ^ 8 * 20 + 8)
  | 2 => BitVec.ofNat 36 (2 ^ 31 * 18 + 2 ^ 26 * 16 + 2 ^ 21 * 16 + 2 ^ 16 * 16 + 2 ^ 11 * 5)
  | _ => BitVec.ofNat 36 (2 ^ 32 * fuseRev s + 2 ^ 28 * 4 + 2 ^ 24 * 2 + 2 ^ 20 * 14)

/-- FEAT: FEATN into XD (R234). -/
def execFeat (l : LaneId) (c : Cond) (xd : Reg) (n : BitVec 2) (s : State) : Out :=
  .next (laneStep l c {} (fun _ _ s0 => .ok (.seq, s0.modCtx l (fun x => x.put xd (featWord s0 l n)))) s)

/-! ### SVC, EGI and FENCE (R235-R237) -/

/-- Entries of the Headframe's request queue (R235). -/
def svcQueueSize : Nat := 64

/-- SVC: one request to the Headframe; with the queue full the lane stalls (R235, R274). -/
def execSvc (l : LaneId) (c : Cond) (code : W16) (s : State) : Out :=
  .next (laneStep l c { fence := true, effect := true } (fun t k s0 =>
    let x := s0.ctx l
    let args := [x.get 0, x.get 1, x.get 2, x.get 3]
    if svcQueueSize ≤ s0.hf.svcq.length then .error (.stall .svc)
    else
      let s1 := s0.modCycle l t (fun y => { y with svcOrd := (y.svcOrd + 1) % 1024 })
      outsideSimple s1 l t k (.svc code k.number k.svcOrd args) (fun s2 =>
        { s2 with hf := { s2.hf with svcq := s2.hf.svcq ++
          [⟨code, isSplit s2 && l == .b, k.reopened, k.svcOrd, t, k.number, args⟩] } })) s)

/-- The words of an egress block at the program point of an EGI, with the values R158 gives (R236). -/
def egiWords (s : State) (l : LaneId) (t : Task) (c : LCycle) (r : EgrRec) : List W36 :=
  (List.range r.words).map (fun i => (trackedValue (s.lane l) t c (imageBase + r.image + i)).1)

/-- EGI: releases a block at once; in paired mode once both comparators agree on both lanes' readings (R236, R286). -/
def execEgi (l : LaneId) (c : Cond) (block : BitVec 9) (s : State) : Out :=
  .next (laneStep l c { fence := true, effect := true } (fun t k s0 =>
    let b : Block := Fin.ofNat 512 block.toNat
    match (egressRec s0 b).filter (fun r => r.task == t) with
    | none => .error (.exc 0x10 0 false)
    | some r =>
      if (List.range r.words).any (fun i => walkFails (s0.lane l) t k (imageBase + r.image + i)) then .error (.exc 0x08 0 false)
      else
      let ws := egiWords s0 l t k r
      let n := (s0.lane l).count + 1
      let s1 := s0.modLane l (fun x => foldEgress x t true [(b, ws)])
      if !isPaired s1 then outsideSimple s1 l t k (.egi b) (fun s2 =>
        if s2.asy.unpaired && !s2.asy.debugOut then s2 else releaseBlock s2 b ws)
      else match l with
        | .a =>
          let v : Verdict := { Verdict.blank (.egi b) t k.number n s1.seq.stamp 0 with egA := [(b, ws)] }
          outsideSimple { s1 with asy := { s1.asy with pend := s1.asy.pend ++ [v] } } l t k (.egi b) id
        | .b =>
          outsideSimple s1 l t k (.egi b) (fun s2 => { s2 with asy := { s2.asy with
            pend := match firstIdx (fun v : Verdict => v.kind == VKind.egi b && v.count == n && v.sigB.isNone) s2.asy.pend with
              | some i => listModify s2.asy.pend i (fun v => { v with sigB := some 0, egB := [(b, ws)] })
              | none => s2.asy.pend } })) s)

/-- FENCE: nothing but the fence of its block (R237). -/
def execFence (l : LaneId) (c : Cond) (s : State) : Out :=
  .next (laneStep l c { fence := true } (fun _ _ s0 => .ok (.seq, s0)) s)

end Sys2Proof.Machine
end

