-- ==== Sys2Proof/Machine/LaneFlow.lean ====
section
/-! DEFINITION. Block instructions (R218-R220), timers and counters (R221-R227), transfers (R228, R229) and words that are no
instruction (R188-R190). -/

namespace Sys2Proof.Machine

open Sys2Proof

/-! ### Block instructions (R218-R220) -/

/-- An offset moved by one element (R218). -/
def stepOffset (v : W36) (down : Bool) : W36 := if down then v - 1 else v + 1

/-- Where execution goes after an element: the instruction ends when X2 is 0. -/
def elementFlow (left : W36) : Flow := if left = 0 then .seq else .stay

/-- BMOV: word SEGD:X0 := word SEGS:X1 for one element, then X0, X1 and X2 move on; X2 = 0 at issue changes nothing (R218, R219). Every
check of the source, its journal records among them, comes before the destination's (R220, R268). -/
def execBmov (l : LaneId) (c : Cond) (segd segs : Sel) (dir : Bool) (s : State) : Out :=
  .next (laneStep l c {} (fun t k s0 =>
    let x := s0.ctx l
    if x.get 2 = 0 then .ok (.seq, s0)
    else
      let atElem := fun (e : Stop) => match e with | .exc code _ par => Stop.exc code k.elem par | other => other
      match checkAccess s0 l x.sel[segs] (x.get 1).toNat true false false 1 with
      | .error e => .error (atElem e)
      | .ok (a, d) =>
        if d.tracked && walkFails (s0.lane l) t k a then .error (.exc 0x08 k.elem false)
        else match checkAccess s0 l x.sel[segd] (x.get 0).toNat false true false 1 with
        | .error e => .error (atElem e)
        | .ok (b, g) =>
          match readAt s0 l t d a with
          | .error e => .error e
          | .ok (v, s1) =>
            match writeAt s1 l t g b v with
            | .error e => .error e
            | .ok (_, s2) =>
              let left := x.get 2 - 1
              .ok (elementFlow left, s2.modCtx l (fun y =>
                ((y.put 0 (stepOffset (x.get 0) dir)).put 1 (stepOffset (x.get 1) dir)).put 2 left))) s)

/-- BFILL: word SEGD:X0 := X1 for one element (R218, R219). -/
def execBfill (l : LaneId) (c : Cond) (segd : Sel) (dir : Bool) (s : State) : Out :=
  .next (laneStep l c {} (fun t k s0 =>
    let x := s0.ctx l
    if x.get 2 = 0 then .ok (.seq, s0)
    else
      let atElem := fun (e : Stop) => match e with | .exc code _ par => Stop.exc code k.elem par | other => other
      match checkAccess s0 l x.sel[segd] (x.get 0).toNat false true false 1 with
      | .error e => .error (atElem e)
      | .ok (b, g) =>
        match writeAt s0 l t g b (x.get 1) with
        | .error e => .error e
        | .ok (_, s2) =>
          let left := x.get 2 - 1
          .ok (elementFlow left, s2.modCtx l (fun y => (y.put 0 (stepOffset (x.get 0) dir)).put 2 left))) s)

/-! ### Timers (R222, R223) -/

/-- A timer record's fields. -/
structure Timer where
  start : W72
  q : Bool
  run : Bool
  prev : Bool
  done : Bool
  deriving DecidableEq, Repr

/-- Word +2 of a timer record. -/
def Timer.word (t : Timer) : W36 := BitVec.ofNat 36 (bit t.q + 2 * bit t.run + 4 * bit t.prev + 8 * bit t.done)

/-- start_fix of R223: a running timer whose start lies ahead starts now. -/
def Timer.fix (t : Timer) (now : W72) : Timer := if t.run && now.ult t.start then { t with start := now } else t

/-- The smaller of the time since the start and the preset. -/
def elapsed (t : Timer) (now pt : W72) : W72 := if (now - t.start).ult pt then now - t.start else pt

/-- One execution of TON with its input (R223): the record and ET. -/
def tonStep (t : Timer) (inp : Bool) (now pt : W72) : Timer × W72 :=
  if !inp then ({ t with run := false, q := false }, 0)
  else if t.q then (t, pt)
  else
    let t1 := if t.run then t else { t with start := now, run := true }
    let et := elapsed t1 now pt
    (if et = pt then { t1 with q := true, run := false } else t1, et)

/-- One execution of TOF (R223). -/
def tofStep (t : Timer) (inp : Bool) (now pt : W72) : Timer × W72 :=
  if inp then ({ t with run := false, done := false, q := true }, 0)
  else if t.q then
    let t1 := if t.run then t else { t with start := now, run := true }
    let et := elapsed t1 now pt
    (if et = pt then { t1 with q := false, run := false, done := true } else t1, et)
  else if t.done then (t, pt)
  else (t, 0)

/-- One execution of TP (R223). -/
def tpStep (t : Timer) (inp : Bool) (now pt : W72) : Timer × W72 :=
  let t1 := if !t.run && inp && !t.prev then { t with start := now, run := true, done := false } else t
  let r : Timer × W72 :=
    if t1.run then
      let et := elapsed t1 now pt
      (if et = pt then { t1 with run := false, done := true } else t1, et)
    else if t1.done && inp then (t1, pt)
    else ({ t1 with done := false }, 0)
  ({ r.1 with q := r.1.run }, r.2)

/-- TIMER in one of its modes (R222-R224): four words read, words +0 to +2 written, pair XP := ET, RLR := Q. -/
def timerStep (f : Timer → Bool → W72 → W72 → Timer × W72) (l : LaneId) (c : Cond) (seg : Sel) (xp : Reg) (word : BitVec 17)
    (s : State) : State :=
  laneStep l c { illegal := oddPair xp } (fun t cyc s0 =>
    match checkRecord s0 l seg word.toNat with
    | .error e => .error e
    | .ok (a, d) =>
      match readWords s0 l t d a 4 with
      | .error e => .error e
      | .ok (ws, s1) =>
        let w := fun i => ws.getD i 0
        if 16 ≤ (w 2).toNat ∨ w 3 ≠ 0 then .error (.exc 0x0C 0 false)
        else
          let x := s1.ctx l
          let rec0 : Timer := ⟨w 1 ++ w 0, (w 2).getLsbD 0, (w 2).getLsbD 1, (w 2).getLsbD 2, (w 2).getLsbD 3⟩
          let r := f (rec0.fix cyc.tk) x.rlr cyc.tk (x.getPair xp)
          let new := { r.1 with prev := x.rlr }
          match writeWords s1 l t d a [new.start.setWidth 36, new.start.extractLsb' 36 36, new.word] with
          | .error e => .error e
          | .ok (_, s2) => .ok (.seq, s2.modCtx l (fun y => { y.putPair xp r.2 with rlr := new.q }))) s

/-- TON (R223). -/
def execTon (l : LaneId) (c : Cond) (seg : Sel) (xp : Reg) (word : BitVec 17) (s : State) : Out :=
  .next (timerStep tonStep l c seg xp word s)

/-- TOF (R223). -/
def execTof (l : LaneId) (c : Cond) (seg : Sel) (xp : Reg) (word : BitVec 17) (s : State) : Out :=
  .next (timerStep tofStep l c seg xp word s)

/-- TP (R223). -/
def execTp (l : LaneId) (c : Cond) (seg : Sel) (xp : Reg) (word : BitVec 17) (s : State) : Out :=
  .next (timerStep tpStep l c seg xp word s)

/-! ### Counters (R225-R227) -/

/-- A sum limited to the signed 72-bit range, and whether it had to be (R226). -/
def sat72 (i : Int) : W72 × Bool :=
  if i < -(2 ^ 71 : Int) then (BitVec.intMin 72, true)
  else if (2 ^ 71 : Int) ≤ i then (BitVec.intMax 72, true)
  else (BitVec.ofInt 72 i, false)

/-- What a counter mode answers: the new count, whether the sum was limited, and RLR. -/
structure CountRes where
  cv : W72
  hit : Bool
  rlr : Bool
  deriving DecidableEq, Repr

/-- CTU (R226). -/
def ctuStep (cv x : W72) (inp prev : Bool) : CountRes :=
  let r := if inp && !prev then sat72 (cv.toInt + 1) else (cv, false)
  ⟨r.1, r.2, x.sle r.1⟩

/-- CTD (R226). -/
def ctdStep (cv _x : W72) (inp prev : Bool) : CountRes :=
  let r := if inp && !prev then sat72 (cv.toInt - 1) else (cv, false)
  ⟨r.1, r.2, r.1.sle 0⟩

/-- ACC (R226). -/
def accStep (cv x : W72) (inp _prev : Bool) : CountRes :=
  let r := if inp then sat72 (cv.toInt + x.toInt) else (cv, false)
  ⟨r.1, r.2, r.2⟩

/-- LOAD (R226). -/
def loadStep (cv x : W72) (inp _prev : Bool) : CountRes := ⟨if inp then x else cv, false, false⟩

/-- The reserved word of a counter record, checked without a tracked read (R225, R227). -/
def peekWord (s : State) (l : LaneId) (t : Task) (c : LCycle) (d : SegRec) (a : Nat) : Run W36 :=
  match valueAt s l t c d a with
  | .error e => .error e
  | .ok (v, s1) => .ok (v.1, s1)

/-- CNT72 in one of its modes (R225-R227): words +0 to +2 read and every word checked, then computes, then writes words +0 to +2 in one
step. -/
def countStep (f : W72 → W72 → Bool → Bool → CountRes) (l : LaneId) (c : Cond) (seg : Sel) (xp : Reg) (word : BitVec 17)
    (s : State) : State :=
  laneStep l c { illegal := oddPair xp } (fun t cyc s0 =>
    match checkRecord s0 l seg word.toNat with
    | .error e => .error e
    | .ok (a, d) =>
      match readWords s0 l t d a 3 with
      | .error e => .error e
      | .ok (ws, s2) =>
      match peekWord s2 l t cyc d (a + 3) with
      | .error e => .error e
      | .ok (reserved, s1) =>
        let w := fun i => ws.getD i 0
        if 2 ≤ (w 2).toNat ∨ reserved ≠ 0 then .error (.exc 0x0C 0 false)
        else
          let x := s1.ctx l
          let r := f (w 1 ++ w 0) (x.getPair xp) x.rlr ((w 2).getLsbD 0)
          match writeWords s1 l t d a [r.cv.setWidth 36, r.cv.extractLsb' 36 36, BitVec.ofNat 36 (bit x.rlr)] with
          | .error e => .error e
          | .ok (_, s2) => .ok (.seq, s2.modCtx l (fun y => { (y.putPair xp r.cv).nz r.cv with v := r.hit, rlr := r.rlr }))) s

/-- CTU (R226). -/
def execCtu (l : LaneId) (c : Cond) (seg : Sel) (xp : Reg) (word : BitVec 17) (s : State) : Out :=
  .next (countStep ctuStep l c seg xp word s)

/-- CTD (R226). -/
def execCtd (l : LaneId) (c : Cond) (seg : Sel) (xp : Reg) (word : BitVec 17) (s : State) : Out :=
  .next (countStep ctdStep l c seg xp word s)

/-- ACC (R226). -/
def execAcc (l : LaneId) (c : Cond) (seg : Sel) (xp : Reg) (word : BitVec 17) (s : State) : Out :=
  .next (countStep accStep l c seg xp word s)

/-- LOAD (R226). -/
def execLoad (l : LaneId) (c : Cond) (seg : Sel) (xp : Reg) (word : BitVec 17) (s : State) : Out :=
  .next (countStep loadStep l c seg xp word s)

/-- GETT: pair XD := Tk (R117, R221). -/
def execGett (l : LaneId) (c : Cond) (xd : Reg) (s : State) : Out :=
  .next (laneStep l c { illegal := oddPair xd } (fun _ cyc s0 => .ok (.seq, s0.modCtx l (fun x => x.putPair xd cyc.tk))) s)

/-! ### Transfers (R228, R229) -/

/-- The checks of a branch target (R152, R229): another block only at its first instruction, no address above LENGTH. -/
def checkBranch (s : State) (l : LaneId) (target : Nat) : Except Stop Unit :=
  let x := s.lane l
  if progLength s l < target then .error (.exc 0x03 0 false)
  else if target < progLength s l ∧ blockIdx x.blocks target ≠ blockIdx x.blocks x.ctx.pc.toNat ∧ !isBlockStart x.blocks target then
    .error (.exc 0x02 0 false)
  else .ok ()

/-- The checks of a call target (R152, R229): always a block's first instruction. -/
def checkCall (s : State) (l : LaneId) (target : Nat) : Except Stop Unit :=
  if progLength s l < target then .error (.exc 0x03 0 false)
  else if target < progLength s l ∧ !isBlockStart (s.lane l).blocks target then .error (.exc 0x02 0 false)
  else .ok ()

/-- X14 := PC + 1 (R228). -/
def linkRegister (s : State) (l : LaneId) : State :=
  s.modCtx l (fun x => x.put 14 (BitVec.ofNat 36 (x.pc.toNat + 1)))

/-- The call itself, once its target is known. -/
def callTo (s : State) (l : LaneId) (target : Nat) : Run Flow :=
  match checkCall s l target with
  | .error e => .error e
  | .ok _ => .ok (.cross target, linkRegister s l)

/-- B (R228, R229). -/
def execB (l : LaneId) (c : Cond) (target : BitVec 20) (s : State) : Out :=
  .next (laneStep l c { target := some target.toNat } (fun _ _ s0 =>
    match checkBranch s0 l target.toNat with
    | .error e => .error e
    | .ok _ => .ok (.branch target.toNat, s0)) s)

/-- CALL (R228, R229). -/
def execCall (l : LaneId) (c : Cond) (target : BitVec 20) (s : State) : Out :=
  .next (laneStep l c {} (fun _ _ s0 => callTo s0 l target.toNat) s)

/-- JR: a branch whose target is X[XA][19:0]; a branch into a lower-numbered block needs a fence block (R171, R228).
DEDUCED, log entry 21. -/
def execJr (l : LaneId) (c : Cond) (xa : Reg) (s : State) : Out :=
  .next (laneStep l c {} (fun _ cyc s0 =>
    let v := ((s0.ctx l).get xa).toNat
    if 2 ^ 20 ≤ v then .error (.exc 0x01 0 false)
    else if unmarkedFence (s0.lane l) cyc { target := some v } then .error (.fall 6)
    else match checkBranch s0 l v with
      | .error e => .error e
      | .ok _ => .ok (.branch v, s0)) s)

/-- CALLR: the target is read before X14 is written (R228). -/
def execCallr (l : LaneId) (c : Cond) (xa : Reg) (s : State) : Out :=
  .next (laneStep l c {} (fun _ _ s0 =>
    let v := ((s0.ctx l).get xa).toNat
    if 2 ^ 20 ≤ v then .error (.exc 0x01 0 false) else callTo s0 l v) s)

/-- RET: a return to X14[19:0] (R228). -/
def execRet (l : LaneId) (c : Cond) (s : State) : Out :=
  .next (laneStep l c {} (fun _ _ s0 =>
    let v := ((s0.ctx l).get 14).toNat
    if 2 ^ 20 ≤ v then .error (.exc 0x01 0 false)
    else if progLength s0 l < v then .error (.exc 0x03 0 false)
    else .ok (.cross v, s0)) s)

/-! ### Words that are no instruction (R188-R190) -/

/-- ILLEGAL_OP: a word that is an encoding error raises its exception whatever its condition (R188, R190). A word that is an
instruction is no such word, and changes nothing. -/
def execIllegalOp (l : LaneId) (word : W36) (s : State) : Out :=
  if laneWordIllegal word then .next (laneStep l .al { illegal := true } (fun _ _ s0 => .ok (.seq, s0)) s) else .next s

end Sys2Proof.Machine
end

