-- ==== Sys2Proof/Machine/LaneWord.lean ====
section
/-! DEFINITION. The 36-bit and 72-bit arithmetic, logic, compare and shift instructions of a lane, and the loads and stores of
words and double words (R209-R217). -/

namespace Sys2Proof.Machine

open Sys2Proof

/-! ### Shared shapes -/

/-- A register and the flags written together. -/
def Ctx.result (c : Ctx) (xd : Reg) (r : W36 × Flags) : Ctx := (c.put xd r.1).withFlags r.2

/-- A pair and the flags written together. -/
def Ctx.resultPair (c : Ctx) (xd : Reg) (r : W72 × Flags) : Ctx := (c.putPair xd r.1).withFlags r.2

/-- A register written with N and Z from it. -/
def Ctx.resultNz (c : Ctx) (xd : Reg) (r : W36) : Ctx := (c.put xd r).nz r

/-- A pair written with N and Z from it. -/
def Ctx.resultPairNz (c : Ctx) (xd : Reg) (r : W72) : Ctx := (c.putPair xd r).nz r

/-- A register written with N and Z from it, and V. -/
def Ctx.resultNzV (c : Ctx) (xd : Reg) (r : W36) (v : Bool) : Ctx := { (c.put xd r).nz r with v := v }

/-- The most negative word (R182). -/
def minWord : W36 := BitVec.intMin 36

/-- The signed product of two words, exact. -/
def signedProduct (a b : W36) : Int := a.toInt * b.toInt

/-- A signed integer fits a word. -/
def fitsWord (i : Int) : Bool := decide (-(2 ^ 35 : Int) ≤ i ∧ i < 2 ^ 35)

/-- A division, with DIV_ZERO for a divisor of zero (R214). -/
def divStep (l : LaneId) (c : Cond) (xb : Reg) (f : Ctx → Ctx) (s : State) : State :=
  ctxStep l c false (fun x => if x.get xb = 0 then .error 0x0B else .ok (f x)) s

/-- A shift of a single register (R217).
DEDUCED, log entry 22. -/
def shiftStep (k : ShiftKind) (l : LaneId) (c : Cond) (xd xa : Reg) (amt : ShAmt) (s : State) : State :=
  regStep l c false (fun x =>
    let n := shiftAmount x amt
    { (x.resultNz xd (shiftResult k (x.get xa) n)) with c := shiftCarry k (x.get xa) n x.c }) s

/-- A shift of a pair (R217). -/
def shiftPairStep (k : ShiftKind) (l : LaneId) (c : Cond) (xd xa : Reg) (amt : ShAmt) (s : State) : State :=
  regStep l c (oddPair xd || oddPair xa) (fun x =>
    let n := shiftAmount x amt
    { (x.resultPairNz xd (shiftResult k (x.getPair xa) n)) with c := shiftCarry k (x.getPair xa) n x.c }) s

/-! ### 36-bit arithmetic and logic (R209, R214) -/

/-- ADD: XD := XA + XB, NZCV (R214). -/
def execAdd (l : LaneId) (c : Cond) (xd xa xb : Reg) (s : State) : Out :=
  .next (regStep l c false (fun x => x.result xd (addWith (x.get xa) (x.get xb) false)) s)

/-- ADC: XD := XA + XB + C, NZCV (R214). -/
def execAdc (l : LaneId) (c : Cond) (xd xa xb : Reg) (s : State) : Out :=
  .next (regStep l c false (fun x => x.result xd (addWith (x.get xa) (x.get xb) x.c)) s)

/-- SUB: XD := XA - XB, NZCV (R214). -/
def execSub (l : LaneId) (c : Cond) (xd xa xb : Reg) (s : State) : Out :=
  .next (regStep l c false (fun x => x.result xd (subFlags (x.get xa) (x.get xb))) s)

/-- SBC: XD := XA - XB - (1 - C), NZCV (R214). -/
def execSbc (l : LaneId) (c : Cond) (xd xa xb : Reg) (s : State) : Out :=
  .next (regStep l c false (fun x => x.result xd (subWith (x.get xa) (x.get xb) x.c)) s)

/-- AND: NZ (R214). -/
def execAlu36And (l : LaneId) (c : Cond) (xd xa xb : Reg) (s : State) : Out :=
  .next (regStep l c false (fun x => x.resultNz xd ((x.get xa) &&& (x.get xb))) s)

/-- OR: NZ (R214). -/
def execAlu36Or (l : LaneId) (c : Cond) (xd xa xb : Reg) (s : State) : Out :=
  .next (regStep l c false (fun x => x.resultNz xd ((x.get xa) ||| (x.get xb))) s)

/-- XOR: NZ (R214). -/
def execAlu36Xor (l : LaneId) (c : Cond) (xd xa xb : Reg) (s : State) : Out :=
  .next (regStep l c false (fun x => x.resultNz xd ((x.get xa) ^^^ (x.get xb))) s)

/-- ANDN: NZ (R214). -/
def execAlu36Andn (l : LaneId) (c : Cond) (xd xa xb : Reg) (s : State) : Out :=
  .next (regStep l c false (fun x => x.resultNz xd ((x.get xa) &&& ~~~(x.get xb))) s)

/-- MOV: XD := XA, no flags (R214). -/
def execMov (l : LaneId) (c : Cond) (xd xa : Reg) (s : State) : Out :=
  .next (regStep l c false (fun x => x.put xd (x.get xa)) s)

/-- NOT: NZ (R214). -/
def execNot (l : LaneId) (c : Cond) (xd xa : Reg) (s : State) : Out :=
  .next (regStep l c false (fun x => x.resultNz xd (~~~(x.get xa))) s)

/-- NEG: XD := 0 - XA, NZCV (R214). -/
def execNeg (l : LaneId) (c : Cond) (xd xa : Reg) (s : State) : Out :=
  .next (regStep l c false (fun x => x.result xd (subFlags 0 (x.get xa))) s)

/-- ABS: the minimum value stays unchanged with V := 1 (R214). -/
def execAbs (l : LaneId) (c : Cond) (xd xa : Reg) (s : State) : Out :=
  .next (regStep l c false (fun x => x.resultNzV xd (if (x.get xa).msb then -(x.get xa) else (x.get xa)) ((x.get xa) == minWord)) s)

/-- MUL: low 36 bits; V where the signed product does not fit (R214). -/
def execMul (l : LaneId) (c : Cond) (xd xa xb : Reg) (s : State) : Out :=
  .next (regStep l c false (fun x => x.resultNzV xd ((x.get xa) * (x.get xb)) (!fitsWord (signedProduct (x.get xa) (x.get xb)))) s)

/-- MULH: high 36 bits of the signed product (R214). -/
def execMulh (l : LaneId) (c : Cond) (xd xa xb : Reg) (s : State) : Out :=
  .next (regStep l c false (fun x => x.resultNz xd (BitVec.ofInt 36 (signedProduct (x.get xa) (x.get xb) / 2 ^ 36))) s)

/-- MULHU: high 36 bits of the unsigned product (R214). -/
def execMulhu (l : LaneId) (c : Cond) (xd xa xb : Reg) (s : State) : Out :=
  .next (regStep l c false (fun x => x.resultNz xd (BitVec.ofNat 36 ((x.get xa).toNat * (x.get xb).toNat / 2 ^ 36))) s)

/-- DIV: signed, truncated toward zero; the minimum value by -1 gives itself with V := 1 (R214). -/
def execDiv (l : LaneId) (c : Cond) (xd xa xb : Reg) (s : State) : Out :=
  .next (divStep l c xb (fun x => x.resultNzV xd ((x.get xa).sdiv (x.get xb)) ((x.get xa) == minWord && (x.get xb) == BitVec.allOnes 36)) s)

/-- DIVU: unsigned (R214). -/
def execDivu (l : LaneId) (c : Cond) (xd xa xb : Reg) (s : State) : Out :=
  .next (divStep l c xb (fun x => x.resultNz xd ((x.get xa) / (x.get xb))) s)

/-- REM: remainder of DIV, sign of XA (R214). -/
def execRem (l : LaneId) (c : Cond) (xd xa xb : Reg) (s : State) : Out :=
  .next (divStep l c xb (fun x => x.resultNz xd ((x.get xa).srem (x.get xb))) s)

/-- REMU: remainder of DIVU (R214). -/
def execRemu (l : LaneId) (c : Cond) (xd xa xb : Reg) (s : State) : Out :=
  .next (divStep l c xb (fun x => x.resultNz xd ((x.get xa) % (x.get xb))) s)

/-- MIN: signed minimum (R214). -/
def execMin (l : LaneId) (c : Cond) (xd xa xb : Reg) (s : State) : Out :=
  .next (regStep l c false (fun x => x.resultNz xd (if (x.get xa).slt (x.get xb) then (x.get xa) else (x.get xb))) s)

/-- MAX: signed maximum (R214). -/
def execMax (l : LaneId) (c : Cond) (xd xa xb : Reg) (s : State) : Out :=
  .next (regStep l c false (fun x => x.resultNz xd (if (x.get xa).slt (x.get xb) then (x.get xb) else (x.get xa))) s)

/-- MINU: unsigned minimum (R214). -/
def execMinu (l : LaneId) (c : Cond) (xd xa xb : Reg) (s : State) : Out :=
  .next (regStep l c false (fun x => x.resultNz xd (if (x.get xa).ult (x.get xb) then (x.get xa) else (x.get xb))) s)

/-- MAXU: unsigned maximum (R214). -/
def execMaxu (l : LaneId) (c : Cond) (xd xa xb : Reg) (s : State) : Out :=
  .next (regStep l c false (fun x => x.resultNz xd (if (x.get xa).ult (x.get xb) then (x.get xb) else (x.get xa))) s)

/-- SEL: XD := XA if RLR = 1, else XB (R214). -/
def execSel (l : LaneId) (c : Cond) (xd xa xb : Reg) (s : State) : Out :=
  .next (regStep l c false (fun x => x.put xd (if x.rlr then (x.get xa) else (x.get xb))) s)

/-- ADDI: XD := XA + sext(IMM18), flags as ADD (R209). -/
def execAddi (l : LaneId) (c : Cond) (xd xa : Reg) (imm : BitVec 18) (s : State) : Out :=
  .next (regStep l c false (fun x => x.result xd (addWith (x.get xa) (imm.signExtend 36) false)) s)

/-- ANDI: XD := XA and zext(IMM18), NZ (R209). -/
def execAndi (l : LaneId) (c : Cond) (xd xa : Reg) (imm : BitVec 18) (s : State) : Out :=
  .next (regStep l c false (fun x => x.resultNz xd ((x.get xa) &&& imm.setWidth 36)) s)

/-- ORI: XD := XA or zext(IMM18), NZ (R209). -/
def execOri (l : LaneId) (c : Cond) (xd xa : Reg) (imm : BitVec 18) (s : State) : Out :=
  .next (regStep l c false (fun x => x.resultNz xd ((x.get xa) ||| imm.setWidth 36)) s)

/-- XORI: XD := XA xor zext(IMM18), NZ (R209). -/
def execXori (l : LaneId) (c : Cond) (xd xa : Reg) (imm : BitVec 18) (s : State) : Out :=
  .next (regStep l c false (fun x => x.resultNz xd ((x.get xa) ^^^ imm.setWidth 36)) s)

/-- MOVI: XD := sext(IMM22), no flags (R209). -/
def execMovi (l : LaneId) (c : Cond) (xd : Reg) (imm : BitVec 22) (s : State) : Out :=
  .next (regStep l c false (fun x => x.put xd (imm.signExtend 36)) s)

/-- MOVH: XD[35:22] := IMM14, XD[21:0] unchanged, no flags (R209). -/
def execMovh (l : LaneId) (c : Cond) (xd : Reg) (imm : BitVec 14) (s : State) : Out :=
  .next (regStep l c false (fun x => x.put xd (imm ++ (x.get xd).setWidth 22)) s)

/-! ### 72-bit arithmetic (R215) -/

/-- ADD72: NZCV on 72 bits (R215). -/
def execAdd72 (l : LaneId) (c : Cond) (xd xa xb : Reg) (s : State) : Out :=
  .next (regStep l c (oddPair xd || oddPair xa || oddPair xb) (fun x => x.resultPair xd (addWith (x.getPair xa) (x.getPair xb) false)) s)

/-- SUB72: NZCV on 72 bits (R215). -/
def execSub72 (l : LaneId) (c : Cond) (xd xa xb : Reg) (s : State) : Out :=
  .next (regStep l c (oddPair xd || oddPair xa || oddPair xb) (fun x => x.resultPair xd (subFlags (x.getPair xa) (x.getPair xb))) s)

/-- NEG72: XD := 0 - XA (R215). -/
def execNeg72 (l : LaneId) (c : Cond) (xd xa : Reg) (s : State) : Out :=
  .next (regStep l c (oddPair xd || oddPair xa) (fun x => x.resultPair xd (subFlags 0 (x.getPair xa))) s)

/-- MOV72: no flags (R215). -/
def execMov72 (l : LaneId) (c : Cond) (xd xa : Reg) (s : State) : Out :=
  .next (regStep l c (oddPair xd || oddPair xa) (fun x => x.putPair xd (x.getPair xa)) s)

/-- MULW: the signed product of two single registers (R215). -/
def execMulw (l : LaneId) (c : Cond) (xd xa xb : Reg) (s : State) : Out :=
  .next (regStep l c (oddPair xd) (fun x => x.resultPairNz xd (BitVec.ofInt 72 (signedProduct (x.get xa) (x.get xb)))) s)

/-- MULWU: the unsigned product (R215). -/
def execMulwu (l : LaneId) (c : Cond) (xd xa xb : Reg) (s : State) : Out :=
  .next (regStep l c (oddPair xd) (fun x => x.resultPairNz xd (BitVec.ofNat 72 ((x.get xa).toNat * (x.get xb).toNat))) s)

/-- SEXT: XD := sext(XA), XA a single register (R215). -/
def execSext (l : LaneId) (c : Cond) (xd xa : Reg) (s : State) : Out :=
  .next (regStep l c (oddPair xd) (fun x => x.putPair xd ((x.get xa).signExtend 72)) s)

/-- ZEXT: XD := zext(XA), XA a single register (R215). -/
def execZext (l : LaneId) (c : Cond) (xd xa : Reg) (s : State) : Out :=
  .next (regStep l c (oddPair xd) (fun x => x.putPair xd ((x.get xa).setWidth 72)) s)

/-- MIN72: signed minimum (R215). -/
def execMin72 (l : LaneId) (c : Cond) (xd xa xb : Reg) (s : State) : Out :=
  .next (regStep l c (oddPair xd || oddPair xa || oddPair xb) (fun x => x.resultPairNz xd (if (x.getPair xa).slt (x.getPair xb) then (x.getPair xa) else (x.getPair xb))) s)

/-- MAX72: signed maximum (R215). -/
def execMax72 (l : LaneId) (c : Cond) (xd xa xb : Reg) (s : State) : Out :=
  .next (regStep l c (oddPair xd || oddPair xa || oddPair xb) (fun x => x.resultPairNz xd (if (x.getPair xa).slt (x.getPair xb) then (x.getPair xb) else (x.getPair xa))) s)

/-! ### Compares (R216) and shifts (R217) -/

/-- CMP: flags of XA - XB (R216). -/
def execCmp (l : LaneId) (c : Cond) (xa xb : Reg) (s : State) : Out :=
  .next (regStep l c false (fun x => x.withFlags (subFlags (x.get xa) (x.get xb)).2) s)

/-- CMN: flags of XA + XB (R216). -/
def execCmn (l : LaneId) (c : Cond) (xa xb : Reg) (s : State) : Out :=
  .next (regStep l c false (fun x => x.withFlags (addWith (x.get xa) (x.get xb) false).2) s)

/-- TST: NZ of XA and XB (R216). -/
def execTst (l : LaneId) (c : Cond) (xa xb : Reg) (s : State) : Out :=
  .next (regStep l c false (fun x => x.nz ((x.get xa) &&& (x.get xb))) s)

/-- CMP72: flags of pair XA - pair XB (R216). -/
def execCmp72 (l : LaneId) (c : Cond) (xa xb : Reg) (s : State) : Out :=
  .next (regStep l c (oddPair xa || oddPair xb) (fun x => x.withFlags (subFlags (x.getPair xa) (x.getPair xb)).2) s)

/-- CMPI: flags of XA - sext(IMM18) (R209). -/
def execCmpi (l : LaneId) (c : Cond) (xa : Reg) (imm : BitVec 18) (s : State) : Out :=
  .next (regStep l c false (fun x => x.withFlags (subFlags (x.get xa) (imm.signExtend 36)).2) s)

/-- LSL of a single register (R217). -/
def execLsl (l : LaneId) (c : Cond) (xd xa : Reg) (amt : ShAmt) (s : State) : Out :=
  .next (shiftStep .lsl l c xd xa amt s)

/-- LSL72 of a pair (R217). -/
def execLsl72 (l : LaneId) (c : Cond) (xd xa : Reg) (amt : ShAmt) (s : State) : Out :=
  .next (shiftPairStep .lsl l c xd xa amt s)

/-- LSR of a single register (R217). -/
def execLsr (l : LaneId) (c : Cond) (xd xa : Reg) (amt : ShAmt) (s : State) : Out :=
  .next (shiftStep .lsr l c xd xa amt s)

/-- LSR72 of a pair (R217). -/
def execLsr72 (l : LaneId) (c : Cond) (xd xa : Reg) (amt : ShAmt) (s : State) : Out :=
  .next (shiftPairStep .lsr l c xd xa amt s)

/-- ASR of a single register (R217). -/
def execAsr (l : LaneId) (c : Cond) (xd xa : Reg) (amt : ShAmt) (s : State) : Out :=
  .next (shiftStep .asr l c xd xa amt s)

/-- ASR72 of a pair (R217). -/
def execAsr72 (l : LaneId) (c : Cond) (xd xa : Reg) (amt : ShAmt) (s : State) : Out :=
  .next (shiftPairStep .asr l c xd xa amt s)

/-- ROL of a single register (R217). -/
def execRol (l : LaneId) (c : Cond) (xd xa : Reg) (amt : ShAmt) (s : State) : Out :=
  .next (shiftStep .rol l c xd xa amt s)

/-- ROL72 of a pair (R217). -/
def execRol72 (l : LaneId) (c : Cond) (xd xa : Reg) (amt : ShAmt) (s : State) : Out :=
  .next (shiftPairStep .rol l c xd xa amt s)

/-- ROR of a single register (R217). -/
def execRor (l : LaneId) (c : Cond) (xd xa : Reg) (amt : ShAmt) (s : State) : Out :=
  .next (shiftStep .ror l c xd xa amt s)

/-- ROR72 of a pair (R217). -/
def execRor72 (l : LaneId) (c : Cond) (xd xa : Reg) (amt : ShAmt) (s : State) : Out :=
  .next (shiftPairStep .ror l c xd xa amt s)

/-! ### Memory words (R211, R212) -/

/-- LDW: XD := word, a tracked read (R212). -/
def execLdw (l : LaneId) (c : Cond) (xd : Reg) (seg : Sel) (off : MemOff) (s : State) : Out :=
  .next (laneStep l c {} (fun t _ s0 =>
    match loadWord s0 l t seg (memOffset (s0.ctx l) off) with
    | .error e => .error e
    | .ok (v, s1) => .ok (.seq, s1.modCtx l (fun x => x.put xd v))) s)

/-- STW: word := XD, without reading it (R212). -/
def execStw (l : LaneId) (c : Cond) (xd : Reg) (seg : Sel) (off : MemOff) (s : State) : Out :=
  .next (laneStep l c {} (fun t _ s0 =>
    match storeWord s0 l t seg (memOffset (s0.ctx l) off) ((s0.ctx l).get xd) with
    | .error e => .error e
    | .ok (_, s1) => .ok (.seq, s1)) s)

/-- LDD: pair XD := double word (R211, R212). -/
def execLdd (l : LaneId) (c : Cond) (xd : Reg) (seg : Sel) (off : MemOff) (s : State) : Out :=
  .next (laneStep l c { illegal := oddPair xd } (fun t _ s0 =>
    match loadDouble s0 l t seg (memOffset (s0.ctx l) off) with
    | .error e => .error e
    | .ok (v, s1) => .ok (.seq, s1.modCtx l (fun x => x.putPair xd v))) s)

/-- STD: double word := pair XD (R211, R212). -/
def execStd (l : LaneId) (c : Cond) (xd : Reg) (seg : Sel) (off : MemOff) (s : State) : Out :=
  .next (laneStep l c { illegal := oddPair xd } (fun t _ s0 =>
    match storeDouble s0 l t seg (memOffset (s0.ctx l) off) ((s0.ctx l).getPair xd) with
    | .error e => .error e
    | .ok (_, s1) => .ok (.seq, s1)) s)

end Sys2Proof.Machine
end

