-- ==== Sys2Proof/Machine/Update.lean ====
section
/-! DEFINITION. Updates (R441, R533, R540, R541): the sessions, the blocks of a transfer, verification and activation, and the flash port
and cryptographic engine events. What a command answers is its status and the bytes of its response body. -/

namespace Sys2Proof.Machine

open Sys2Proof

/-- What an Obtum command answers: the state after it, the STATUS of R442 and the response body. -/
structure Answer where
  state : State
  status : Nat
  body : List Byte

/-- An answer without a body. -/
def Answer.stop (s : State) (status : Nat) : Answer := ⟨s, status, []⟩

/-- STATUS codes of R442. -/
def stOk : Nat := 0x00
def stUnknown : Nat := 0x01
def stLength : Nat := 0x02
def stField : Nat := 0x03
def stState : Nat := 0x04
def stBusy : Nat := 0x05
def stSegment : Nat := 0x06
def stNotEditable : Nat := 0x07
def stQueueFull : Nat := 0x08
def stNoTask : Nat := 0x09
def stRefused : Nat := 0x0A
def stNonce : Nat := 0x0B
def stSignature : Nat := 0x0C
def stCrc : Nat := 0x0D
def stSequence : Nat := 0x0E
def stVerify : Nat := 0x0F
def stNotVerified : Nat := 0x10
def stDate : Nat := 0x11
def stPower : Nat := 0x12

/-! ### Sessions (R441) -/

/-- The session of a kind. -/
def session (s : State) (k : ImageKind) : Option UpdSession := s.obt.sessions.find? (fun x => x.kind == k)

/-- A session put in place of the kind's old one. -/
def putSession (s : State) (x : UpdSession) : State :=
  { s with obt := { s.obt with sessions := x :: s.obt.sessions.filter (fun y => y.kind != x.kind) } }

/-- Blocks of a transfer: the ciphertext with its tag of 16 bytes, in blocks of 4 KiB (R536). -/
def transferBlocks (length : Nat) : Nat := (length + 16 + 4095) / 4096

/-- A session whose transfer is not complete (R441).
DESIGN CHOICE, log entry 62. -/
def sessionOpen (x : UpdSession) : Bool := decide (x.nextHalf < 2 * transferBlocks x.length)

/-- A flash operation failed (R541 code 10, R548).
DESIGN CHOICE, log entry 63. -/
def flashFailed (s : State) (k : ImageKind) : State := captureFail s k 10 0

/-- The active slot of a kind, and its target, as the changes requested so far leave them (R540).
DESIGN CHOICE, log entry 64. -/
def wantedActive (s : State) (k : ImageKind) : Bool := entryActive (entryOf (wantedRecord s) k)

/-- A directory change that gives a slot of a kind a state. -/
def stateChange (k : ImageKind) (b : Bool) (st : Byte) : DirChange := ⟨k, b, st, false, [], false⟩

/-- UPDATE_BEGIN (R440, R540).
DESIGN CHOICE, log entry 62. -/
def updateBegin (s : State) (ch : ObtChan) (body : List Byte) : Answer :=
  match ImageKind.ofCode (leAt body 0 1) with
  | none => .stop s stField
  | some k =>
    let length := leAt body 4 4
    if !zeros body 1 3 || !within length 1 67108864 then .stop s stField
    else
      let taken := match session s k with
        | some x => x.owner != ch && sessionOpen x
        | none => false
      if taken then .stop s stBusy
      else if wantedActive s k != s.xsp.inUse[kindIx k] then .stop s stState
      else if !portOk s false then .stop (flashFailed s k) stVerify
      else
        let b := !wantedActive s k
        let s1 := changeDirectory s ⟨k, b, slotLoading, true, [], false⟩
        let s2 := s1.modSec (fun x => { x with vmark := x.vmark.set (kindIx k) none })
        ⟨putSession s2 ⟨ch, k, b, length, 0, [], 0, body.drop 8, []⟩, stOk, leBytes 4 (transferBlocks length)⟩

/-- The header as the first UPDATE_BLOCK writes it: what the end of the transfer completes is still erased flash (R533).
DESIGN CHOICE, log entry 63. -/
def openHeader (s : State) (x : UpdSession) : SlotHeader where
  magic := BitVec.ofNat 32 magicSlot
  kind := BitVec.ofNat 8 x.kind.code
  slot := BitVec.ofNat 8 (bit x.slotB)
  gen := entryGen (entryOf (wantedRecord s) x.kind) x.slotB
  length := BitVec.ofNat 32 x.length
  tag := List.replicate 16 0xFF
  wrap := x.wrap
  hcrc := 0xFFFFFFFF
  bcrc := []

/-- The header completed: tag, block CRCs and HCRC (R533).
DESIGN CHOICE, log entry 63. -/
def closeHeader (h : SlotHeader) (tag : List Byte) (blocks : List (List Byte)) : SlotHeader :=
  let h1 := { h with tag := tag, bcrc := blocks.map crc32c }
  { h1 with hcrc := crc32c (headerBytes h1) }

/-- The ciphertext of a block as it is stored, its tag bytes left out, and the tag bytes that it brings (R533, R536). -/
def cutBlock (length index : Nat) (data : List Byte) : List Byte × List Byte :=
  let cipher := min 4096 (length - 4096 * index)
  let tagFrom := cipher
  let tagTo := min 4096 (length + 16 - 4096 * index)
  (padTo 4096 (data.take cipher), (data.take tagTo).drop tagFrom)

/-- A slot written from now on: FLASH_PORT_DONE ends it. -/
def programSlot (s : State) (k : ImageKind) (b : Bool) (x : FlashSlot) (block : Nat) : State :=
  { s with flash := setSlot s.flash k b x, xsp := { s.xsp with slotOp := some ⟨k, b, block⟩ } }

/-- A whole block taken (R441, R533): stored, and with the last one the header is completed and the slot is LOADED (R540). A block beyond
the content area of the slot is not stored (R532).
DESIGN CHOICE, log entry 62. -/
def takeBlock (s : State) (x : UpdSession) (index : Nat) (data : List Byte) : State :=
  let (cipher, tag) := cutBlock x.length index data
  let old := slotAt s.flash x.kind x.slotB
  let base : FlashSlot := if index = 0 then ⟨some (openHeader s x), []⟩ else old
  let stored := decide (4096 * index < x.length) && decide (4096 * index < (contentArea x.kind x.slotB).size)
  let slot := if stored then { base with blocks := base.blocks ++ [cipher] } else base
  let x1 := { x with nextHalf := 2 * index + 2, half0 := [], tag := x.tag ++ tag }
  if index + 1 = transferBlocks x.length then
    let done := { slot with hdr := slot.hdr.map (fun h => closeHeader h x1.tag slot.blocks) }
    changeDirectory (putSession (programSlot s x.kind x.slotB done index) x1) (stateChange x.kind x.slotB slotLoaded)
  else putSession (programSlot s x.kind x.slotB slot index) x1

/-- UPDATE_BLOCK (R440, R441, R540).
DESIGN CHOICE, log entries 62, 63. -/
def updateBlock (s : State) (ch : ObtChan) (body : List Byte) : Answer :=
  let half := leAt body 1 1
  let index := leAt body 4 4
  let crc := BitVec.ofNat 32 (leAt body 8 4)
  let data := body.drop 12
  match ImageKind.ofCode (leAt body 0 1) with
  | none => .stop s stField
  | some k =>
    if decide (1 < half) || !zeros body 2 2 then .stop s stField
    else if s.pil.pfw then .stop s stPower
    else match session s k with
      | none => .stop s stSequence
      | some x =>
        let n := 2 * index + half
        if x.owner != ch then .stop s stBusy
        else if n + 1 = x.nextHalf then ⟨s, stOk, leBytes 4 (x.nextHalf / 2)⟩
        else if n ≠ x.nextHalf ∨ ¬ sessionOpen x then .stop s stSequence
        else if !kindPort s k then .stop (flashFailed s k) stVerify
        else if half = 0 then
          let s0 := if index = 0 then programSlot s k x.slotB ⟨some (openHeader s x), []⟩ 0 else s
          ⟨putSession s0 { x with nextHalf := n + 1, half0 := data, crc0 := crc }, stOk, leBytes 4 index⟩
        else if crc ≠ x.crc0 ∨ crc32c (x.half0 ++ data) ≠ crc then
          .stop (putSession s { x with nextHalf := 2 * index, half0 := [] }) stCrc
        else ⟨takeBlock s x index (x.half0 ++ data), stOk, leBytes 4 (index + 1)⟩

/-! ### Verification and activation (R540, R541) -/

/-- A verification that failed: the directory marks the target FAILED.
DESIGN CHOICE, log entry 64. -/
def failTarget (s : State) (k : ImageKind) (b : Bool) (code blk : Nat) : Answer :=
  let s1 := changeDirectory (verifyFailed s k b code blk) (stateChange k b slotFailed)
  .stop (s1.modSec (fun x => { x with vmark := x.vmark.set (kindIx k) none })) stVerify

/-- A firmware image is at least the MIN_FW of the charter in effect (R86).
DEDUCED, log entry 104. -/
def versionAllowed (s : State) (k : ImageKind) (bs : List Byte) : Bool :=
  match k, s.cht.charter with
  | .firmware, some c => decide (c.head.minFw.toNat ≤ leAt bs 8 4)
  | _, _ => true

/-- The checks of R541 over a whole slot; a firmware image that the charter does not allow fails as FORMAT (R86). -/
def verifyWhole (s : State) (k : ImageKind) (b : Bool) : Except (Nat × Nat) (List Byte) :=
  match verifySlot s k b true with
  | .ok bs => if versionAllowed s k bs then .ok bs else .error (8, 0)
  | .error e => .error e

/-- The cryptographic engine begins the work of a command; CRYPTO_ENGINE_DONE ends it (R366, R547).
DESIGN CHOICE, log entry 39. -/
def engineBusy (s : State) : State := s.modSec (fun x => { x with busy := true })

/-- UPDATE_VERIFY (R540). -/
def updateVerify (s : State) (body : List Byte) : Answer :=
  match ImageKind.ofCode (leAt body 0 1) with
  | none => .stop s stField
  | some k =>
    let b := !wantedActive s k
    let e := entryOf (wantedRecord s) k
    let st := entryState e b
    if !zeros body 1 3 then .stop s stField
    else if s.pil.pfw then .stop s stPower
    else if s.sec.busy then .stop s stBusy
    else if st ≠ slotLoaded ∧ st ≠ slotFailed then .stop s stNotVerified
    else match verifyWhole s k b with
      | .error (code, blk) => failTarget (engineBusy s) k b code blk
      | .ok bs =>
        ⟨(engineBusy s).modSec (fun x => { x with vmark := x.vmark.set (kindIx k) (some (entryGen e b)) }), stOk, Config.shake256 64 bs⟩

/-- UPDATE_ACTIVATE (R540). -/
def updateActivate (s : State) (body : List Byte) : Answer :=
  match ImageKind.ofCode (leAt body 0 1) with
  | none => .stop s stField
  | some k =>
    let b := !wantedActive s k
    let e := entryOf (wantedRecord s) k
    if !zeros body 1 3 then .stop s stField
    else if s.pil.pfw then .stop s stPower
    else if s.sec.busy then .stop s stBusy
    else if s.sec.vmark[kindIx k] ≠ some (entryGen e b) then .stop s stNotVerified
    else match verifyWhole s k b with
      | .error (code, blk) => failTarget (engineBusy s) k b code blk
      | .ok bs =>
        let s1 := changeDirectory (engineBusy s) ⟨k, b, slotVerified, false, Config.shake256 64 bs, true⟩
        .stop (postDev s1 0x0202 21 (leBytes 1 k.code ++ leBytes 1 (bit b))) stOk

/-! ### The flash ports and the cryptographic engine (R539, R541, R366) -/

/-- A slot write is under way on a port. -/
def slotWrites (s : State) (port1 : Bool) : Bool :=
  match s.xsp.slotOp with | some o => (headerArea o.kind false).port1 == port1 | none => false

/-- An operation on a port is done: the slot write, or else the oldest directory change (R539); directory pages lie on port 0. -/
def portDone (s : State) (port1 : Bool) : State :=
  if slotWrites s port1 then beginChange (s.modXsp (fun x => { x with slotOp := none }))
  else if port1 then s
  else finishChange s

/-- FLASH_PORT_DONE: an operation on a flash port completes; its notification crosses seam 10 and raises vector 19 (R366, R468).
DESIGN CHOICE, log entry 64. -/
def execFlashPortDone (port1 : Bool) (s : State) : Out :=
  .next (notifySeam { portDone s port1 with hf := { s.hf with noteFlash := true } } 10)

/-- The transfer of a kind ends: its session and the changes that wait for it.
DESIGN CHOICE, log entry 63. -/
def dropTransfer (s : State) (k : ImageKind) : State :=
  { s with
    obt := { s.obt with sessions := s.obt.sessions.filter (fun (x : UpdSession) => x.kind != k) }
    xsp := { s.xsp with dirq := s.xsp.dirq.filter (fun (c : DirChange) => !(c.kind == k && c.state == slotLoaded)) } }

/-- A slot write that failed leaves its block undefined.
DESIGN CHOICE, log entry 63. -/
def spoilBlock (s : State) (o : SlotOp) : State :=
  let (s1, n) := s.takeFree
  let x := slotAt s1.flash o.kind o.slotB
  let junk := (List.range 4096).map (fun i => Config.freeByte (4096 * n + i))
  { s1 with flash := setSlot s1.flash o.kind o.slotB { x with blocks := x.blocks.set o.block junk } }

/-- DIR_TMO_EXPIRY: an erase or program exceeds XSP.DIR_TMO; the operation fails with code FLASH (R541, R548): the slot write under way,
or else the oldest directory change, whose page stays erased, so that the current record stands (R539).
DESIGN CHOICE, log entries 63, 64. -/
def execDirTmoExpiry (s : State) : Out :=
  .next (
    match s.xsp.slotOp, s.xsp.dirq with
    | some o, _ => beginChange (flashFailed (dropTransfer ((spoilBlock s o).modXsp (fun x => { x with slotOp := none })) o.kind) o.kind)
    | none, c :: rest =>
      let s1 := s.modXsp (fun x => { x with dirq := rest })
      beginChange (flashFailed (if c.state = slotLoading then dropTransfer s1 c.kind else s1) c.kind)
    | none, [] => s)

/-- CRYPTO_ENGINE_DONE: BUSY clears and vector 20 is raised (R366, R547).
DESIGN CHOICE, log entry 39. -/
def execCryptoEngineDone (s : State) : Out :=
  .next (if s.sec.busy then { s.modSec (fun x => { x with busy := false }) with hf := { s.hf with noteCrypto := true } } else s)

end Sys2Proof.Machine
end

