-- ==== Sys2Proof/Machine/Obtum.lean ====
section
/-! DEFINITION. Obtum (R438-R442): what each command answers, and the response that its channel receives. -/

namespace Sys2Proof.Machine

open Sys2Proof

/-! ### Requests and responses (R434, R438, R439) -/

/-- A channel on which Obtum is served: a service mailbox, or a bus whose record names it a service bus (R438), which is on only in the
running state (R107, R398).
DESIGN CHOICE, log entry 56. -/
def obtumServes (s : State) (ch : ObtChan) : Bool :=
  hostServes s && !s.tap.prod && (match ch with
    | .mailbox m => hostKind s m.val == 0
    | .bus n => serviceBus s n && s.sys.state == .running)

/-- UPDATE_VERIFY and UPDATE_ACTIVATE respond when they complete, and other channels are served meanwhile (R439). -/
def respondsLate (m : List Byte) : Bool := leAt m 0 2 == 0x10 || leAt m 0 2 == 0x11

/-- The request of a channel that is served next: its oldest one, once those that arrived earlier have their response, but for those that
respond when they complete (R439).
DESIGN CHOICE, log entry 56. -/
def nextRequest (s : State) (ch : ObtChan) : Option (List Byte) :=
  match firstIdx (fun (p : ObtChan × List Byte) => p.1 == ch) s.obt.reqs with
  | none => none
  | some i =>
    match s.obt.reqs[i]? with
    | some (_, m) => if respondsLate m || (s.obt.reqs.take i).all (fun p => respondsLate p.2) then some m else none
    | none => none

/-- The channel asks for this command: the request served next has its CMD and TAG, and its body follows the header (R439).
DESIGN CHOICE, log entry 56. -/
def asks (s : State) (ch : ObtChan) (cmd : Nat) (tag : W32) (body : List Byte) : Bool :=
  obtumServes s ch && (match nextRequest s ch with
    | some m => leAt m 0 2 == cmd && leAt m 4 4 == tag.toNat && m.drop 8 == body
    | none => false)

/-- A request is whole: its header is there, LEN is the length of its body, and it has at most 4,080 bytes (R439, R442).
DESIGN CHOICE, log entry 56. -/
def requestWhole (s : State) (ch : ObtChan) : Bool :=
  match nextRequest s ch with
  | some m => within m.length 8 4080 && leAt m 2 2 + 8 == m.length
  | none => false

/-- The 12-byte header of a response and its body (R439).
DESIGN CHOICE, log entry 56. -/
def responseBytes (cmd : Nat) (tag : W32) (status : Nat) (body : List Byte) : List Byte :=
  leBytes 2 (cmd + 0x8000) ++ leBytes 2 body.length ++ leBytes 4 tag.toNat ++ leBytes 2 status ++ leBytes 2 0 ++ body

/-- A response given: in a mailbox it replaces the request, with LENGTH and RESULT; on a bus it is sent and the request is done.
DESIGN CHOICE, log entry 56. -/
def respond (s : State) (ch : ObtChan) (cmd : Nat) (tag : W32) (status : Nat) (body : List Byte) : State :=
  let bytes := responseBytes cmd tag status body
  match ch with
  | .mailbox m =>
    let s1 := { s with msg := msgPut s.msg (4096 * m.val + 16) bytes }
    dropMessage (putBoxField (putBoxField s1 m.val 2 bytes.length) m.val 6 status) ch
  | .bus n => dropMessage (sendResponse s n bytes) ch

/-- A command is refused with STATE (R440, R107).
DESIGN CHOICE, log entry 57. -/
def stateRefuses (s : State) (cmd : Nat) : Bool :=
  let y := s.sys.state
  if y == .halt && 3 < cmd then true
  else if y == .bootRecovery && !(cmd ≤ 3 || (0x0E ≤ cmd && cmd ≤ 0x11)) then true
  else match cmd with
    | 0x04 | 0x06 | 0x08 | 0x09 => s.cht.charter.isNone
    | 0x07 | 0x0A | 0x0B => !roleRuns s.pair.role
    | 0x0C | 0x0D => (s.cht.charter.bind (·.pair)).isNone
    | _ => false

/-- A request served (R439): refused by state, then by length; a response with a status other than OK is empty, but for a VALUES_READ
that stops at its segment. A channel that asks nothing of the kind is not served.
DESIGN CHOICE, log entries 56, 57. -/
def serve (ch : ObtChan) (cmd : Nat) (tag : W32) (body : List Byte) (lengthOk : Bool) (s : State) (run : State → Answer) : State :=
  if !asks s ch cmd tag body then s
  else
    let a : Answer :=
      if stateRefuses s cmd then .stop s stState
      else if !lengthOk || !requestWhole s ch then .stop s stLength
      else run s
    respond a.state ch cmd tag a.status (if a.status = stOk ∨ (cmd = 6 ∧ a.status = stSegment) then a.body else [])

/-- OBTUM_UNKNOWN: a CMD that R440 does not define, whatever the state (R439, R442).
DESIGN CHOICE, log entry 57. -/
def execObtumUnknown (ch : ObtChan) (tag : W32) (cmd : W16) (s : State) : Out :=
  .next (
    let body := ((nextRequest s ch).getD []).drop 8
    if 1 ≤ cmd.toNat ∧ cmd.toNat ≤ 0x14 ∨ asks s ch cmd.toNat tag body = false then s
    else respond s ch cmd.toNat tag stUnknown [])

/-! ### Identity and status -/

/-- IDENTIFY (R440). -/
def identifyBody (s : State) : List Byte :=
  leBytes 4 idcode ++ leBytes 2 (fusePartGen s) ++ leBytes 2 (generation s) ++ leBytes 1 (fuseRev s) ++ leBytes 1 s.sys.state.code ++
    leBytes 1 s.pair.role.code ++ leBytes 1 0 ++ leBytes 4 s.sec.fwVersion.toNat ++ leBytes 4 s.sec.serial.toNat ++
    padTo 57 ((Config.identityPub s.sec.keys).take 57) ++ leBytes 3 0

def execIdentify (ch : ObtChan) (tag : W32) (body : List Byte) (s : State) : Out :=
  .next (serve ch 0x01 tag body body.isEmpty s (fun x => ⟨x, stOk, identifyBody x⟩))

/-- The 27 ports of STATUS, in the order of R440. -/
def statusPorts : List Nat :=
  [0x0000, 0x0001, 0x0003, 0x0600, 0x0601, 0x0A00, 0x0A01, 0x1000, 0x1001, 0x1002, 0x1200, 0x1208, 0x1209, 0x0800, 0x0801, 0x0802,
    0x0803, 0x0805, 0x0C00, 0x0C01, 0x0C02, 0x0E01, 0x3200, 0x1400, 0x1600, 0x1800, 0x1A00]

/-- STATUS (R440): the ports and the unit time, 0 before step 13 and in every end state (R116). -/
def statusBody (s : State) : List Byte :=
  statusPorts.flatMap (fun a => leBytes 2 (portValue s a).toNat) ++
    leBytes 9 (if s.sys.state = .running then s.seq.ut.toNat else 0) ++ leBytes 1 0

def execStatus (ch : ObtChan) (tag : W32) (body : List Byte) (s : State) : Out :=
  .next (serve ch 0x02 tag body body.isEmpty s (fun x => ⟨x, stOk, statusBody x⟩))

/-! ### The log (R525-R527) -/

/-- Sequence number of record 0. -/
def firstSeq (s : State) : W32 := BitVec.ofNat 32 (leAt (logRecord s 0) 6 4)

/-- EVENTS_READ (R440, R525). NEXT without a record is stated only for a halt with code 0x31 (R614): it is free elsewhere.
DESIGN CHOICE, log entry 58. -/
def eventsRead (s : State) (body : List Byte) : Answer :=
  let from_ := BitVec.ofNat 32 (leAt body 0 4)
  let most := leAt body 4 2
  if most = 0 ∨ 126 < most ∨ ¬ zeros body 6 2 then .stop s stField
  else
    let d := (from_ - firstSeq s).toNat
    let start := if 2 ^ 31 ≤ d then 0 else d
    let n := min most (s.evt.count - start)
    if n = 0 then
      if s.sys.state = .halt ∧ s.sys.code = 0x31 then ⟨s, stOk, leBytes 8 0⟩
      else
        let f := s.takeFree
        ⟨f.1, stOk, leBytes 4 0 ++ leBytes 4 ((Config.freeWord f.2).toNat % 2 ^ 32)⟩
    else
      ⟨readRecords s start n, stOk, leBytes 2 n ++ leBytes 2 0 ++ leBytes 4 (firstSeq s + BitVec.ofNat 32 (start + n)).toNat ++
        (List.range n).flatMap (fun i => logRecord s (start + i))⟩

def execEventsRead (ch : ObtChan) (tag : W32) (body : List Byte) (s : State) : Out :=
  .next (serve ch 0x03 tag body (body.length == 8) s (fun x => eventsRead x body))

/-- The nonce last issued, while unused and at most 60 s old (R440, R526).
DESIGN CHOICE, log entry 59. -/
def nonceValid (s : State) (given : List Byte) : Bool :=
  match s.obt.nonce with
  | some (n, age) => n == given && decide (age ≤ nonceLife)
  | none => false

/-- A presented nonce is used up, whatever the outcome (R526).
DESIGN CHOICE, log entry 59. -/
def useNonce (s : State) (given : List Byte) : State :=
  match s.obt.nonce with
  | some (n, _) => if n = given then { s with obt := { s.obt with nonce := none } } else s
  | none => s

/-- EVENTS_CLEAR (R526, R527). Under a power-fail warning the recorder's commits are refused (R518), so the clear is, too.
DESIGN CHOICE, log entry 59. -/
def eventsClear (s : State) (body : List Byte) : Answer :=
  let keyix := leAt body 0 1
  let nonce := (body.drop 8).take 32
  let s1 := useNonce s nonce
  match s.cht.charter with
  | none => .stop s1 stState
  | some c =>
    if !zeros body 1 3 then .stop s1 stField
    else if keyix ≠ c.head.keyix ∨ (ownerKey s keyix).isNone then .stop s1 stSignature
    else if !nonceValid s nonce then .stop s1 stNonce
    else if leAt body 4 4 ≠ s.evt.seq.toNat then .stop s1 stField
    else
      let msg := padTo 57 ((Config.identityPub s.sec.keys).take 57) ++ (body.drop 4).take 36
      if !Config.ed448phVerify [0x4C, 0x5A, 0x45, 0x56] c.head.pubkey msg (body.drop 40) then .stop s1 stSignature
      else if s.pil.pfw then .stop (refuseCommit s1 1) stPower
      else ⟨clearLog s1 keyix, stOk, leBytes 4 s.evt.count⟩

/-- EVENTS_CLEAR: a nonce is used up by a clear that is refused with STATE, too.
DESIGN CHOICE, log entry 59. -/
def execEventsClear (ch : ObtChan) (tag : W32) (body : List Byte) (s : State) : Out :=
  let presents := asks s ch 0x04 tag body && stateRefuses s 0x04 && body.length == 154
  .next (serve ch 0x04 tag body (body.length == 154) (if presents then useNonce s ((body.drop 8).take 32) else s) (fun x => eventsClear x body))

/-- NONCE (R440): single use, valid 60 s, replaced by the next.
DESIGN CHOICE, log entry 61. -/
def issueNonce (s : State) : Answer :=
  let n := padTo 32 ((Config.entropy (2 * s.obt.nonces)).take 32)
  ⟨{ s with obt := { s.obt with nonce := some (n, 0), nonces := s.obt.nonces + 1 } }, stOk, n⟩

def execNonce (ch : ObtChan) (tag : W32) (body : List Byte) (s : State) : Out := .next (serve ch 0x05 tag body body.isEmpty s issueNonce)

/-! ### Values (R143, R440) -/

/-- The words from an address of a region, up to the first that lies in no segment or beyond the region. -/
def readRun (s : State) (l : LaneId) (image : Bool) : Nat → Nat → List W36
  | 0, _ => []
  | n + 1, a =>
    let beyond := if image then decide (131072 ≤ a) else decide (2097152 ≤ a)
    let phys := if image then 0x200000 + a else a
    if beyond then []
    else match windowWord s l phys with
      | some v => v :: readRun s l image n (a + 1)
      | none => []

/-- VALUES_READ (R440): ADDR counts words of the region, as the lane window does (R36).
DEDUCED, log entry 40; DESIGN CHOICE, log entry 57. -/
def valuesRead (s : State) (body : List Byte) : Answer :=
  let lane := leAt body 0 1
  let region := leAt body 1 1
  let count := leAt body 2 2
  if 1 < lane ∨ 1 < region ∨ count = 0 ∨ 800 < count then .stop s stField
  else
    let ws := readRun s (if lane = 1 then .b else .a) (region == 1) count (leAt body 4 4)
    ⟨s, if ws.length = count then stOk else stSegment, leBytes 2 ws.length ++ leBytes 2 0 ++ ws.flatMap packWord⟩

def execValuesRead (ch : ObtChan) (tag : W32) (body : List Byte) (s : State) : Out :=
  .next (serve ch 0x06 tag body (body.length == 8) s (fun x => valuesRead x body))

/-- The entries of VALUES_EDIT: lane, physical address, value; none where a field is out of range. -/
def editEntries (body : List Byte) (count : Nat) : Option (List (LaneId × Nat × W36)) :=
  (List.range count).mapM (fun i =>
    let e := body.drop (4 + 12 * i)
    if 1 < leAt e 4 1 ∨ ¬ zeros e 5 2 ∨ 2 ^ 36 ≤ leAt e 7 5 then none
    else some (if leAt e 4 1 = 1 then LaneId.b else LaneId.a, leAt e 0 4, BitVec.ofNat 36 (leAt e 7 5)))

/-- Edits posted in order, stopping at the first refusal (R143, R440).
DEDUCED, log entry 40. -/
def postEdits : List (LaneId × Nat × W36) → State → State × Nat
  | [], s => (s, stOk)
  | (l, a, v) :: r, s =>
    if 0x220000 ≤ a then (s, stSegment)
    else match firmwareEdit s l a v with
      | (s1, none) => postEdits r s1
      | (s1, some .notEdit) => (s1, stNotEditable)
      | (s1, some _) => (s1, stQueueFull)

/-- VALUES_EDIT (R440). -/
def valuesEdit (s : State) (body : List Byte) : Answer :=
  let count := leAt body 0 2
  if count = 0 ∨ 64 < count ∨ ¬ zeros body 2 2 then .stop s stField
  else match editEntries body count with
    | none => .stop s stField
    | some es =>
      let first := editWord s 3
      let (s1, st) := postEdits es s
      ⟨s1, st, leBytes 2 count ++ leBytes 2 0 ++ leBytes 2 first⟩

def execValuesEdit (ch : ObtChan) (tag : W32) (body : List Byte) (s : State) : Out :=
  .next (serve ch 0x07 tag body (decide (4 ≤ body.length) && body.length == 4 + 12 * leAt body 0 2) s (fun x => valuesEdit x body))

/-! ### Monitors and ageing (R440) -/

/-- One point of MONITORS_READ. -/
def pointBytes (s : State) (m : Point) (hist : Bool) : List Byte :=
  let d := s.hlt.data[m]
  leBytes 4 m.val ++ leBytes 4 d.min.toNat ++ leBytes 4 d.max.toNat ++ leBytes 4 d.last.toNat ++ leBytes 4 d.samples.toNat ++
    (if hist then d.bins.toList.flatMap (fun v => leBytes 4 v.toNat) else [])

/-- MONITORS_READ. -/
def monitorsRead (s : State) (body : List Byte) : Answer :=
  let point := leAt body 0 1
  let hist := leAt body 1 1
  if (31 < point ∧ point ≠ 0xFF) ∨ 1 < hist ∨ (hist = 1 ∧ point = 0xFF) ∨ ¬ zeros body 2 2 then .stop s stField
  else
    let ps : List Point := if point = 0xFF then List.finRange 32 else [Fin.ofNat 32 point]
    ⟨s, stOk, leBytes 2 ps.length ++ leBytes 2 0 ++ ps.flatMap (fun m => pointBytes s m (hist == 1))⟩

def execMonitorsRead (ch : ObtChan) (tag : W32) (body : List Byte) (s : State) : Out :=
  .next (serve ch 0x08 tag body (body.length == 4) s (fun x => monitorsRead x body))

/-- AGEING_READ. -/
def ageingBody (s : State) : List Byte :=
  leBytes 6 s.age.ledger.toNat ++ leBytes 2 s.age.life.toNat ++ leBytes 1 s.laneA.ldo ++ leBytes 1 s.laneB.ldo ++
    leBytes 1 (s.clk.cur[(0 : Island)]) ++ leBytes 1 (s.clk.cur[(1 : Island)]) ++ leBytes 4 (s.age.planAge / 3600)

def execAgeingRead (ch : ObtChan) (tag : W32) (body : List Byte) (s : State) : Out :=
  .next (serve ch 0x09 tag body body.isEmpty s (fun x => ⟨x, stOk, ageingBody x⟩))

/-! ### Tasks (R113, R114) -/

/-- Tasks that a mask names, where every one is defined.
DESIGN CHOICE, log entry 57. -/
def maskTasks (s : State) (mask : Nat) : Option (List Task) :=
  let ts := allTasks.filter (fun t => mask.testBit t.val)
  if ts.all (fun t => (taskRec s t).isSome) then some ts else none

/-- A task mask. -/
def taskMaskOf (ts : List Task) : Nat := ts.foldl (fun acc t => acc + 2 ^ t.val) 0

/-- A task that a start command starts (R113). -/
def startable (s : State) (t : Task) : Bool :=
  match (s.task t).phase with
  | .stopped => true
  | .faulted => true
  | _ => false

/-- TASK_START (R113, R440). -/
def tasksStart (s : State) (body : List Byte) : Answer :=
  if !zeros body 2 2 then .stop s stField
  else match maskTasks s (leAt body 0 2) with
    | none => .stop s stNoTask
    | some ts =>
      let go := ts.filter (startable s)
      ⟨go.foldl startTask s, stOk, leBytes 2 (taskMaskOf go) ++ leBytes 2 0⟩

def execTaskStart (ch : ObtChan) (tag : W32) (body : List Byte) (s : State) : Out :=
  .next (serve ch 0x0A tag body (body.length == 4) s (fun x => tasksStart x body))

/-- A stop command at one task (R114). -/
def stopTask (s : State) (t : Task) : State :=
  s.modTask t (fun k => match k.phase with
    | .ready _ => { k with phase := .stopped }
    | .skip _ => { k with phase := .stopped }
    | .opened => { k with stopReq := true }
    | _ => k)

/-- TASK_STOP (R114, R440). -/
def tasksStop (s : State) (body : List Byte) : Answer :=
  if !zeros body 2 2 then .stop s stField
  else match maskTasks s (leAt body 0 2) with
    | none => .stop s stNoTask
    | some ts =>
      let go := ts.filter (fun t => !startable s t)
      ⟨go.foldl stopTask s, stOk, leBytes 2 (taskMaskOf go) ++ leBytes 2 0⟩

def execTaskStop (ch : ObtChan) (tag : W32) (body : List Byte) (s : State) : Out :=
  .next (serve ch 0x0B tag body (body.length == 4) s (fun x => tasksStop x body))

/-! ### The pair (R346, R354) -/

/-- SWAP: the answer is given at the trigger; a refusal is recorded with its reason (R347). ORIGIN is 0 (R324). -/
def execSwap (ch : ObtChan) (tag : W32) (body : List Byte) (s : State) : Out :=
  .next (serve ch 0x0C tag body body.isEmpty s (fun x => .stop (triggerSwap x 0) (if swapRefusal x = 0 then stOk else stRefused)))

/-- PARTNER_RESET: RESET_REQ is sent (R354). -/
def execPartnerReset (ch : ObtChan) (tag : W32) (body : List Byte) (s : State) : Out :=
  .next (serve ch 0x0D tag body body.isEmpty s (fun x => .stop (queueFrame x .resetReq) stOk))

/-! ### Updates (R440, R441, R540) -/

def execUpdateBegin (ch : ObtChan) (tag : W32) (body : List Byte) (s : State) : Out :=
  .next (serve ch 0x0E tag body (body.length == 136) s (fun x => updateBegin x ch body))

def execUpdateBlock (ch : ObtChan) (tag : W32) (body : List Byte) (s : State) : Out :=
  .next (serve ch 0x0F tag body (body.length == 2060) s (fun x => updateBlock x ch body))

def execUpdateVerify (ch : ObtChan) (tag : W32) (body : List Byte) (s : State) : Out :=
  .next (serve ch 0x10 tag body (body.length == 4) s (fun x => updateVerify x body))

def execUpdateActivate (ch : ObtChan) (tag : W32) (body : List Byte) (s : State) : Out :=
  .next (serve ch 0x11 tag body (body.length == 4) s (fun x => updateActivate x body))

/-! ### Attestation (R545) -/

/-- A latched image hash, zero for a kind that no charter put in effect. -/
def attestHash (s : State) (k : ImageKind) : List Byte :=
  if k != .firmware && s.cht.charter.isNone then List.replicate 64 0 else latchedHash s k

/-- ATTEST. -/
def attestBody (s : State) (nonce : List Byte) : List Byte :=
  let said := attestHash s .firmware ++ attestHash s .charter ++ attestHash s .program ++ nonce
  let idkey := padTo 57 ((Config.identityPub s.sec.keys).take 57)
  said ++ padTo 114 ((Config.identitySign s.sec.keys [0x4C, 0x5A, 0x41, 0x54] (idkey ++ said)).take 114)

def execAttest (ch : ObtChan) (tag : W32) (body : List Byte) (s : State) : Out :=
  .next (serve ch 0x12 tag body (body.length == 32) s (fun x => ⟨x, stOk, attestBody x body⟩))

/-! ### The calendar (R440, R507) -/

/-- CALENDAR_SET: YEAR is the full year; an impossible date is rejected whole, and a locked interface ignores the write (R510).
DESIGN CHOICE, log entry 60. -/
def calendarSet (s : State) (body : List Byte) : Answer :=
  let year := leAt body 0 2
  let c : Cal := ⟨year - 2000, leAt body 2 1, leAt body 3 1, leAt body 4 1, leAt body 5 1, leAt body 6 1, 0⟩
  if leAt body 7 1 ≠ 0 then .stop s stField
  else if s.bkp.locked then .stop s stOk
  else if year < 2000 then .stop (notifySeam (s.modBkp (fun b => { b with dateErr := true, setYm := 0, setDh := 0, setMs := 0 })) 1) stDate
  else
    let r := setCalendar s c
    .stop r.1 (if r.2 then stOk else stDate)

def execCalendarSet (ch : ObtChan) (tag : W32) (body : List Byte) (s : State) : Out :=
  .next (serve ch 0x13 tag body (body.length == 8) s (fun x => calendarSet x body))

/-- CALENDAR_READ: zeros from a locked interface (R510).
DESIGN CHOICE, log entry 60. -/
def calendarBody (s : State) : List Byte :=
  let c := s.bkp.cal
  if s.bkp.locked then List.replicate 12 0
  else leBytes 2 (2000 + c.year) ++ leBytes 1 c.month ++ leBytes 1 c.day ++ leBytes 1 c.hour ++ leBytes 1 c.minute ++ leBytes 1 c.second ++
    leBytes 1 0 ++ leBytes 2 c.frac ++ leBytes 1 (bit s.bkp.timeValid) ++ leBytes 1 0

def execCalendarRead (ch : ObtChan) (tag : W32) (body : List Byte) (s : State) : Out :=
  .next (serve ch 0x14 tag body body.isEmpty s (fun x => ⟨x, stOk, calendarBody x⟩))

end Sys2Proof.Machine
end

