-- ==== Sys2Proof/Machine/Tap.lean ====
section
/-! DEFINITION. The test access port (R562-R575): its instructions, debug authorisation, debug frames, and the burning of fuses. -/

namespace Sys2Proof.Machine

open Sys2Proof

def State.modTap (s : State) (f : TapState → TapState) : State := { s with tap := f s.tap }

/-! ### The instruction register (R562-R570) -/

/-- The running-state column of R563 applies: the part runs, or holds a claim. -/
def runningColumn (s : State) : Bool := s.sys.state == .running || s.pair.claim != 0

/-- Step 1 of a start has ended.
DEDUCED, log entry 41. -/
def stepOneDone (s : State) : Bool :=
  match s.sys.phase with
  | .entered => false
  | .rolledBack => false
  | .released _ => false
  | _ => true

/-- The instruction register takes a code; Capture-IR before it loads 0b0000_0001 (R563). Entering FIELDTEST switches the lands away, leaving it
holds the outputs OFF (R569).
DEDUCED, log entries 41, 47. -/
def setIr (s : State) (code : Byte) : State :=
  let s1 := if code = 0x20 then settle (s.modFd (fun d => { d with loopback := true })) else { s with fd := leaveLoopback s.fd }
  s1.modTap (fun t => { t with ir := code, irShift := 0x01 })

/-- An instruction that drives pins: as BYPASS where the running-state column applies (R563).
DEDUCED, log entry 41. -/
def pinInstruction (s : State) (code : Byte) : State :=
  if runningColumn s then (setIr s 0xFF).modTap (fun t => { t with refused := true }) else setIr s code

/-- A debug session opened with a scope (R546, R573).
DESIGN CHOICE, log entry 46. -/
def openSession (s : State) (scope : BitVec 3) : State :=
  postDev ({ s with sec := { s.sec with open_ := true, scope := scope } }.modTap (fun t => { t with status := 2 })) 0x0204 21
    (leBytes 1 scope.toNat)

/-- DBGAUTH: from the end of step 1; in production test it opens a session at once with every scope (R563, R573).
DEDUCED, log entry 41. -/
def loadDbgauth (s : State) : State :=
  if runningColumn s || stepOneDone s then
    let s1 := setIr s 0x21
    if s1.tap.prod && !s1.sec.open_ then openSession s1 7 else s1
  else setIr s 0xFF

/-- The instruction that a code selects (R563): the data register of CLAMP, HIGHZ and BYPASS is the bypass register, which captures 0. -/
def loadIr (s : State) (code : Byte) : State :=
  let bypassed := fun (x : State) => x.modTap (fun t => { t with bypass := false })
  if code = 0x00 ∨ code = 0x20 then pinInstruction s code
  else if code = 0x03 ∨ code = 0x04 then bypassed (pinInstruction s code)
  else if code = 0x01 ∨ code = 0x02 then setIr s code
  else if code = 0x21 then loadDbgauth s
  else bypassed (setIr s 0xFF)

/-! ### The boundary chain (R563, R567, R568) -/

/-- What drives a ball: its function, its boundary cell, or nothing. -/
inductive BallDriver where
  | functional | cell | off
  deriving DecidableEq, Repr

/-- The driver of a ball under the current instruction: EXTEST and CLAMP drive from the cells, HIGHZ drives nothing, and an observe-only
ball is never driven (R563, R567). PWRON takes its cell only under EXTEST and CLAMP and while main power is up (R568). -/
def ballDriver (s : State) (b : Ball) : BallDriver :=
  let cells := s.tap.ir == 0x00 || s.tap.ir == 0x03
  if b.observeOnly then .functional
  else if b = .pwron then (if cells && !s.bkp.vbat then .cell else .functional)
  else if cells then .cell
  else if s.tap.ir = 0x04 then .off
  else .functional

/-- The level that the output cell of a ball holds in the boundary register.
DESIGN CHOICE, log entry 124. -/
def cellLevel (s : State) (b : Ball) : Bool :=
  (List.range 164).any (fun i => Config.boundaryCell i == some (b, true) && s.tap.boundary.getLsbD i)

/-- The level of a ball, where the model knows it: its cell's, or that of HOST_INT (R435) or PWRON (R508) in function.
DESIGN CHOICE, log entry 124. -/
def ballLevel (s : State) (b : Ball) (outside : Bool) : Bool :=
  match ballDriver s b with
  | .cell => cellLevel s b
  | .off => outside
  | .functional =>
    match b with
    | .pwron => s.bkp.pwron
    | .hostInt => !s.host.intLow && outside
    | _ => outside

/-- Capture-DR of the boundary register, where the instruction selects it (R563, R567): every cell of a ball takes that ball's level.
DESIGN CHOICE, log entry 124. -/
def samplePins (s : State) : State :=
  if s.tap.ir ≠ 0x00 ∧ s.tap.ir ≠ 0x02 then s
  else
    let (s1, n) := s.takeFree
    let pins := Config.pinLevels n
    let bits := (List.range 164).foldl (fun (v : BitVec 164) i =>
      let outside := pins.getLsbD i
      let level := match Config.boundaryCell i with
        | some (b, _) => ballLevel s b outside
        | none => outside
      if level then v ||| (1#164 <<< i) else v) 0#164
    s1.modTap (fun t => { t with sampled := bits })

/-- TAP_RESET: the instruction register holds IDCODE (R562). -/
def execTapReset (s : State) : Out := .next (setIr s 0x01)

/-- EXTEST: the balls are driven from the boundary register, which captures what stands on them. -/
def execExtest (s : State) : Out := .next (samplePins (loadIr s 0x00))

/-- IDCODE: its register reads 0x1481_674F (R565). -/
def execIdcode (s : State) : Out := .next ((loadIr s 0x01).modTap (fun t => { t with ident := BitVec.ofNat 32 idcode }))

/-- SAMPLE/PRELOAD: the balls are sampled, the boundary register takes what is shifted in, and no pin is driven. -/
def execSamplePreload (pins : BitVec 164) (s : State) : Out :=
  .next ((samplePins (loadIr s 0x02)).modTap (fun t => { t with boundary := pins }))

/-- CLAMP. -/
def execClamp (s : State) : Out := .next (loadIr s 0x03)

/-- HIGHZ. -/
def execHighz (s : State) : Out := .next (loadIr s 0x04)

/-- FIELDTEST (R569). -/
def execFieldtest (s : State) : Out := .next (loadIr s 0x20)

/-! ### Field loopback (R569, R570) -/

/-- A land driven to 5.0 V lies above the threshold of its 2.5 V input stage; what stands on another land comes from outside (R569).
DESIGN CHOICE, log entry 125. -/
def landSense (drive outside : BitVec 34) : BitVec 34 := drive ||| outside

/-- Capture-DR under FIELDTEST: DRIVE as last applied, SENSE, VF and SUPPLY_OK (R570); VFIELD is held in units of 10 mV.
DESIGN CHOICE, log entry 125. -/
def captureLoop (s : State) : State :=
  let (s1, n) := s.takeFree
  let free := Config.freeWord n
  let sense := landSense s.tap.drive (free.extractLsb' 0 34)
  s1.modTap (fun t => { t with
    loop := (free.extractLsb' 34 1 ++ BitVec.ofBool (decide (500 < s.fd.vfield.toNat))) ++ (sense ++ s.tap.drive) })

/-- FIELD_LOOPBACK_UPDATE: a scan under FIELDTEST captures the lands, then Update-DR drives them anew; bit 33 is ignored (R570). -/
def execFieldLoopbackUpdate (drive : BitVec 34) (s : State) : Out :=
  .next (if s.tap.ir = 0x20 then (captureLoop s).modTap (fun t => { t with drive := drive &&& ~~~(1#34 <<< 33) }) else s)

/-- DBGAUTH. -/
def execDbgauth (s : State) : Out := .next (loadIr s 0x21)

/-- BYPASS: code 0xFF, a code that R563 does not define, or any code, which selects its instruction. -/
def execBypass (code : Byte) (s : State) : Out := .next (loadIr s code)

/-! ### Debug authorisation (R546, R571) -/

/-- The current challenge has passed its 60 s.
DESIGN CHOICE, log entry 42. -/
def challengeExpired (s : State) : Bool :=
  match s.tap.nonce with
  | some (_, age) => decide (nonceLife < age)
  | none => false

/-- The challenge that a Capture-DR issues where none is current; one under check is current until the check ends.
DESIGN CHOICE, log entry 42. -/
def issueChallenge (s : State) : State :=
  if s.sec.open_ ∨ s.tap.checking.isSome then s
  else if fuseDbgLock s then s.modTap (fun t => { t with status := 4 })
  else if s.tap.nonce.isSome ∧ ¬ challengeExpired s then s
  else s.modTap (fun t => { t with
    nonce := some (padTo 32 ((Config.entropy (2 * t.nonces + 1)).take 32), 0), nonces := t.nonces + 1
    status := if t.nonce.isSome then 5 else t.status })

/-- The last debug frame as bytes 1 to 10 of the debug register hold it (R572). -/
def debugFrameBytes (t : TapState) : List Byte :=
  leBytes 10 (t.cmd.toNat + 2 ^ 8 * t.target.toNat + 2 ^ 16 * t.addr.toNat + 2 ^ 40 * t.data.toNat)

/-- The 174 bytes that a Capture-DR loads (R571). -/
def debugRegister (s : State) : List Byte :=
  let nonce := match s.tap.nonce with
    | some (n, _) => n
    | none => []
  padTo 174 (BitVec.ofNat 8 s.tap.status :: (if s.sec.open_ then debugFrameBytes s.tap else nonce))

/-- DEBUG_CHALLENGE: a Capture-DR under DBGAUTH (R571).
DESIGN CHOICE, log entries 42, 61. -/
def execDebugChallenge (s : State) : Out :=
  .next (
    if s.tap.ir ≠ 0x21 then s
    else
      let s1 := issueChallenge s
      s1.modTap (fun t => { t with captured := debugRegister s1 }))

/-- DEBUG_RESPONSE: Update-DR before a session is open brings a response, and the check begins.
DESIGN CHOICE, log entry 42. -/
def execDebugResponse (scope keysel : Byte) (pubkey sig : List Byte) (s : State) : Out :=
  .next (
    if s.tap.ir ≠ 0x21 ∨ s.sec.open_ ∨ s.tap.checking.isSome then s
    else if fuseDbgLock s then s.modTap (fun t => { t with status := 4 })
    else if challengeExpired s then s.modTap (fun t => { t with nonce := none, status := 5 })
    else s.modTap (fun t => { t with checking := some ⟨scope, keysel, pubkey, sig⟩, status := 1 }))

/-- The key that KEYSEL names: an owner slot, or the vendor root.
DESIGN CHOICE, log entry 42. -/
def debugKey (s : State) (keysel : Byte) : Option (List Byte) :=
  if keysel = 4 then some (vendorKey s) else ownerKey s keysel.toNat

/-- A response answers the part's challenge (R546). -/
def responseValid (s : State) (r : DbgResp) : Bool :=
  match s.tap.nonce with
  | none => false
  | some (n, _) =>
    debugKey s r.keysel == some (Config.shake256 32 r.pubkey) &&
      Config.ed448phVerify [0x4C, 0x5A, 0x44, 0x42] r.pubkey (padTo 57 ((Config.identityPub s.sec.keys).take 57) ++ n ++ [r.scope]) r.sig

/-- DEBUG_CHECK_COMPLETE: the check ends; a response uses its nonce up.
DESIGN CHOICE, log entry 42. -/
def execDebugCheckComplete (s : State) : Out :=
  .next (
    match s.tap.checking with
    | none => s
    | some r =>
      let s1 := s.modTap (fun t => { t with checking := none, nonce := none, status := 3 })
      if responseValid s r && !fuseDbgLock s then openSession s1 (r.scope.setWidth 3) else s1)

/-! ### Unpairing (R299) -/

/-- A pending verdict that leaves without comparison, where DBG_OUT lets it.
DEDUCED, log entry 45. -/
def releasePending (s : State) (v : Verdict) : State :=
  match v.kind with
  | .commit => releaseNow s v
  | .egi b => if s.asy.debugOut then releaseBlock s b (match v.egA with | (_, ws) :: _ => ws | [] => []) else s
  | .ckpt => s

/-- The part unpairs, once.
DEDUCED, log entry 45. -/
def unpair (s : State) : State :=
  if s.asy.unpaired then s
  else
    let out := fuseDbgOut s
    let held := s.asy.pend
    let s1 := { s with asy := { s.asy with
      unpaired := true, debug := true, debugOut := out, pend := [], effects := [], exc := none, rollback := none
      recovery := false, reopened := [] } }
    let s2 := held.foldl releasePending s1
    let s3 := postDev s2 0x0403 5 (leBytes 1 (bit out))
    if out then s3
    else dueCommand { s3 with pair := { s3.pair with withdrawing := s3.pair.withdrawing || s3.pair.claim != 0 } }

/-! ### Debug frames (R572) -/

/-- The bit of SCOPE that covers a target, which is its number in TARGET, too. -/
def targetBit : DbgTarget → Nat
  | .laneA => 0
  | .laneB => 1
  | .headframe => 2

/-- The lane of a target. -/
def targetLane : DbgTarget → Option LaneId
  | .laneA => some .a
  | .laneB => some .b
  | .headframe => none

/-- A frame's answer. -/
def frameStatus (s : State) (status : Nat) : State := s.modTap (fun t => { t with status := status })

/-- The debug register takes a frame (R572); a row that carries no TARGET, ADDR or DATA brings zeros in their place.
DESIGN CHOICE, log entry 43. -/
def takeFrame (s : State) (cmd : Byte) (target : Nat) (addr : BitVec 24) (data : W36) : State :=
  s.modTap (fun t => { t with cmd := cmd, target := BitVec.ofNat 4 target, addr := addr, data := data })

/-- A debug frame: nothing without an open session, STATUS 3 for a target outside SCOPE. -/
def debugFrame (s : State) (cmd : Byte) (t : DbgTarget) (addr : BitVec 24) (data : W36) (act : State → Out) : Out :=
  if s.tap.ir ≠ 0x21 ∨ ¬ s.sec.open_ then .next s
  else
    let s1 := takeFrame s cmd (targetBit t) addr data
    if !s.sec.scope.getLsbD (targetBit t) then .next (frameStatus s1 3) else act (frameStatus s1 2)

/-- A frame that halts, steps or alters its target unpairs the part where that is a lane.
DEDUCED, log entry 45. -/
def alterTarget (s : State) (t : DbgTarget) (onLane : State → LaneId → Out) (onHf : State → Out) : Out :=
  match targetLane t with
  | some l => onLane (unpair s) l
  | none => onHf s

/-- HALT.
DEDUCED, log entry 45. -/
def execHalt (t : DbgTarget) (s : State) : Out :=
  debugFrame s 1 t 0 0 (fun x => alterTarget x t
    (fun y l => .next (y.modLane l (fun k => { k with halted := true, stepOne := false })))
    (fun y => .next (y.modHf (fun h => { h with halted := true, stepOne := false }))))

/-- STEP: the target is halted, and its next instruction executes.
DEDUCED, log entry 45. -/
def execStep (t : DbgTarget) (s : State) : Out :=
  debugFrame s 2 t 0 0 (fun x => alterTarget x t
    (fun y l => .next (y.modLane l (fun k => { k with halted := true, stepOne := true })))
    (fun y => .next (y.modHf (fun h => { h with halted := true, stepOne := true }))))

/-- RESUME. -/
def execResume (t : DbgTarget) (s : State) : Out :=
  debugFrame s 3 t 0 0 (fun x =>
    match targetLane t with
    | some l => .next (x.modLane l (fun k => { k with halted := false, stepOne := false }))
    | none => .next (x.modHf (fun h => { h with halted := false, stepOne := false })))

/-- A register of a lane by its number: the manual does not number them, so they follow R183: X0 to X15, RLR, the bit stack with its
depth, the flags, S0 to S7, PC.
DESIGN CHOICE, log entry 43. -/
def laneRegister (c : Ctx) (n : Nat) : Option W36 :=
  if n < 16 then some c.x[Fin.ofNat 16 n]
  else if n = 16 then some (BitVec.ofNat 36 c.rlr.toNat)
  else if n = 17 then
    some (BitVec.ofNat 36 (256 * c.stack.length + (c.stack.zipIdx.map (fun p => p.1.toNat * 2 ^ p.2)).sum))
  else if n = 18 then some (BitVec.ofNat 36 (8 * c.n.toNat + 4 * c.z.toNat + 2 * c.c.toNat + c.v.toNat))
  else if n < 27 then some (c.sel[Fin.ofNat 8 (n - 19)].setWidth 36)
  else if n = 27 then some (c.pc.setWidth 36)
  else none

/-- A register of a lane written; a number without a register changes none.
DESIGN CHOICE, log entry 43. -/
def putLaneRegister (c : Ctx) (n : Nat) (v : W36) : Ctx :=
  if n < 16 then { c with x := c.x.set (Fin.ofNat 16 n) v }
  else if n = 16 then { c with rlr := v.getLsbD 0 }
  else if n = 17 then { c with stack := (List.range (min 8 (bitsOf v.toNat 11 8))).map (fun i => v.getLsbD i) }
  else if n = 18 then { c with n := v.getLsbD 3, z := v.getLsbD 2, c := v.getLsbD 1, v := v.getLsbD 0 }
  else if n < 27 then { c with sel := c.sel.set (Fin.ofNat 8 (n - 19)) (v.setWidth 9) }
  else if n = 27 then { c with pc := v.setWidth 20 }
  else c

/-- A register of the Headframe by its number, in the order of R358: W0 to W15, the flags, PC, IE, P.
DESIGN CHOICE, log entry 43. -/
def hfRegister (h : HfState) (n : Nat) : Option W36 :=
  if n < 16 then some (h.w[Fin.ofNat 16 n].setWidth 36)
  else if n = 16 then some (BitVec.ofNat 36 (8 * h.n.toNat + 4 * h.z.toNat + 2 * h.c.toNat + h.v.toNat))
  else if n = 17 then some (h.pc.setWidth 36)
  else if n = 18 then some (BitVec.ofNat 36 h.ie.toNat)
  else if n = 19 then some (BitVec.ofNat 36 h.p.toNat)
  else none

/-- P follows PC, so it is not written.
DESIGN CHOICE, log entry 43. -/
def putHfRegister (h : HfState) (n : Nat) (v : W36) : HfState :=
  if n < 16 then { h with w := h.w.set (Fin.ofNat 16 n) (v.setWidth 16) }
  else if n = 16 then { h with n := v.getLsbD 3, z := v.getLsbD 2, c := v.getLsbD 1, v := v.getLsbD 0 }
  else if n = 17 then { h with pc := v.setWidth 15, p := inPartition (v.setWidth 15) }
  else if n = 18 then { h with ie := v.getLsbD 0 }
  else h

/-- What a capture returns after a read; where nothing states it, it is free.
DESIGN CHOICE, log entry 43. -/
def capture (s : State) (v : Option W36) : State :=
  match v with
  | some w => s.modTap (fun t => { t with data := w })
  | none =>
    let (s1, n) := s.takeFree
    s1.modTap (fun t => { t with data := Config.freeWord n })

/-- READ_REG. -/
def execReadReg (t : DbgTarget) (addr : BitVec 24) (s : State) : Out :=
  debugFrame s 4 t addr 0 (fun x =>
    .next (capture x (match targetLane t with
      | some l => laneRegister (x.lane l).ctx addr.toNat
      | none => hfRegister x.hf addr.toNat)))

/-- WRITE_REG. -/
def execWriteReg (t : DbgTarget) (addr : BitVec 24) (data : W36) (s : State) : Out :=
  debugFrame s 5 t addr data (fun x => alterTarget x t
    (fun y l => .next (y.modLane l (fun k => { k with ctx := putLaneRegister k.ctx addr.toNat data })))
    (fun y => .next (y.modHf (fun h => putHfRegister h addr.toNat data))))

/-- An address of the target's space: the populated words of a lane's physical word space (R28), the data space of the Headframe (R32).
DEDUCED, log entry 44. -/
def targetHolds (t : DbgTarget) (a : Nat) : Bool :=
  match targetLane t with
  | some _ => decide (a < 0x220000)
  | none => decide (a < 0x10000)

/-- READ_MEM.
DEDUCED, log entry 44. -/
def execReadMem (t : DbgTarget) (addr : BitVec 24) (s : State) : Out :=
  debugFrame s 6 t addr 0 (fun x =>
    let a := addr.toNat
    if !targetHolds t a then .fault .reservedAddress
    else match targetLane t with
      | some l => .next (capture x (some (memGet (x.lane l).mem a)))
      | none =>
        let r := dataRead x a
        .next (capture r.1 (r.2.map (fun (w : W16) => w.setWidth 36))))

/-- WRITE_MEM: a word written whole reads again, whatever error it had.
DEDUCED, log entry 44. -/
def execWriteMem (t : DbgTarget) (addr : BitVec 24) (data : W36) (s : State) : Out :=
  debugFrame s 7 t addr data (fun x =>
    let a := addr.toNat
    if !targetHolds t a then .fault .reservedAddress
    else alterTarget x t
      (fun y l => .next (y.modLane l (fun k => { k.rewrites a with mem := memSet k.mem a data, bad := k.bad.filter (fun b => b != a) })))
      (fun y => .next (dataWrite y a (data.setWidth 16)).1))

/-! ### Production test (R573, R574) -/

/-- A frame of production test: STATUS 3 elsewhere.
DESIGN CHOICE, log entry 46. -/
def productionFrame (s : State) (cmd : Byte) (addr : BitVec 24) (data : W36) (act : State → State) : Out :=
  .next (
    if s.tap.ir ≠ 0x21 ∨ ¬ s.sec.open_ then s
    else
      let s1 := takeFrame s cmd 0 addr data
      if !s.tap.prod then frameStatus s1 3 else act (frameStatus s1 2))

/-- BURN: bits of a fuse word are burnt to ones and stay burnt.
DESIGN CHOICE, log entry 46. -/
def execBurn (word : BitVec 24) (data : W36) (s : State) : Out :=
  productionFrame s 8 word data (fun x =>
    let ws := vecModify x.fuses.word (Fin.ofNat 44 word.toNat) (fun v => v ||| data.setWidth 32)
    if word.toNat < 44 then { x with fuses := { x.fuses with word := ws } } else x)

/-- KEYGEN: the identity and transport keys, once only.
DESIGN CHOICE, log entry 46. -/
def execKeygen (s : State) : Out :=
  productionFrame s 9 0 0 (fun x => if x.sec.keys = 0 then { x with sec := { x.sec with keys := 1 } } else x)

end Sys2Proof.Machine
end

