-- ==== Sys2Proof/Machine/Dispatch.lean ====
section
/-! DEFINITION. `exec`: the effect of one command on everything but the queue, one direct call of a meaning per command. -/

namespace Sys2Proof.Machine

open Sys2Proof

/-- The effect of one command (spec/opcode_table.json, in the table's order).
DESIGN CHOICE, log entry 6; DEDUCED, log entry 96. -/
def exec (i : Instr) (s : State) : Host.Outcome State Fault Refusal :=
  match i with
  | .powerOn rail => Sys2Proof.Machine.execPowerOn rail s
  | .brownOut rail => Sys2Proof.Machine.execBrownOut rail s
  | .externalReset lowNs => Sys2Proof.Machine.execExternalReset lowNs s
  | .pllLossOfLock why => Sys2Proof.Machine.execPllLossOfLock why s
  | .sysRstWarm p => Sys2Proof.Machine.execSysRstWarm p s
  | .sysRstCold p => Sys2Proof.Machine.execSysRstCold p s
  | .resetRollback => Sys2Proof.Machine.execResetRollback s
  | .resetRelease => Sys2Proof.Machine.execResetRelease s
  | .coldStart env => Sys2Proof.Machine.execColdStart env s
  | .warmStart env => Sys2Proof.Machine.execWarmStart env s
  | .startWatchdogExpiry => Sys2Proof.Machine.execStartWatchdogExpiry s
  | .judgingWindow count => Sys2Proof.Machine.execJudgingWindow count s
  | .judgingTimeout => Sys2Proof.Machine.execJudgingTimeout s
  | .forcedSwitch => Sys2Proof.Machine.execForcedSwitch s
  | .pllLock => Sys2Proof.Machine.execPllLock s
  | .rampStep isl => Sys2Proof.Machine.execRampStep isl s
  | .referenceWatchWindow count => Sys2Proof.Machine.execReferenceWatchWindow count s
  | .clkDivSet isl value p => Sys2Proof.Machine.execClkDivSet isl value p s
  | .gateClose isl => Sys2Proof.Machine.execGateClose isl s
  | .gateOpen isl => Sys2Proof.Machine.execGateOpen isl s
  | .seamStuckTimeout req target at_ => Sys2Proof.Machine.execSeamStuckTimeout req target at_ s
  | .pulseSeamEvent isl returned => Sys2Proof.Machine.execPulseSeamEvent isl returned s
  | .seamPstatClear p => Sys2Proof.Machine.execSeamPstatClear p s
  | .portWrite addr value p => Sys2Proof.Machine.execPortWrite addr value p s
  | .tick => Sys2Proof.Machine.execTick s
  | .cycleStart t => Sys2Proof.Machine.execCycleStart t s
  | .snapshotInstant t => Sys2Proof.Machine.execSnapshotInstant t s
  | .overrun t => Sys2Proof.Machine.execOverrun t s
  | .commit t => Sys2Proof.Machine.execCommit t s
  | .laneBDelivery => Sys2Proof.Machine.execLaneBDelivery s
  | .laneBCommit t => Sys2Proof.Machine.execLaneBCommit t s
  | .preEmption l => Sys2Proof.Machine.execPreEmption l s
  | .contextRestore l => Sys2Proof.Machine.execContextRestore l s
  | .ingressApplication b => Sys2Proof.Machine.execIngressApplication b s
  | .freshnessExpiry b => Sys2Proof.Machine.execFreshnessExpiry b s
  | .editApplication => Sys2Proof.Machine.execEditApplication s
  | .replayInstance l => Sys2Proof.Machine.execReplayInstance l s
  | .forwardPassResume l => Sys2Proof.Machine.execForwardPassResume l s
  | .provisionalExceptionTaken l => Sys2Proof.Machine.execProvisionalExceptionTaken l s
  | .fullReexecution l => Sys2Proof.Machine.execFullReexecution l s
  | .journalRecordRetire l => Sys2Proof.Machine.execJournalRecordRetire l s
  | .assayVerdict hw => Sys2Proof.Machine.execAssayVerdict hw s
  | .catchupLimitExpiry => Sys2Proof.Machine.execCatchupLimitExpiry s
  | .assayRollback => Sys2Proof.Machine.execAssayRollback s
  | .standbyInjectionTest firstFail => Sys2Proof.Machine.execStandbyInjectionTest firstFail s
  | .tramElement => Sys2Proof.Machine.execTramElement s
  | .trmGo ch p => Sys2Proof.Machine.execTrmGo ch p s
  | .trmResume ch p => Sys2Proof.Machine.execTrmResume ch p s
  | .trmAbort ch p => Sys2Proof.Machine.execTrmAbort ch p s
  | .wdtKeyLand key elapsed => Sys2Proof.Machine.execWdtKeyLand key elapsed s
  | .watchdogExpiry => Sys2Proof.Machine.execWatchdogExpiry s
  | .watchdogClockStop silence => Sys2Proof.Machine.execWatchdogClockStop silence s
  | .watchdogPrewarning => Sys2Proof.Machine.execWatchdogPrewarning s
  | .heartbeatTimer => Sys2Proof.Machine.execHeartbeatTimer s
  | .heartbeatMissed => Sys2Proof.Machine.execHeartbeatMissed s
  | .helloTimer => Sys2Proof.Machine.execHelloTimer s
  | .pairWaitExpiry => Sys2Proof.Machine.execPairWaitExpiry s
  | .tchiasFrameSend => Sys2Proof.Machine.execTchiasFrameSend s
  | .hello seq f roundTripNs => Sys2Proof.Machine.execHello seq f roundTripNs s
  | .heartbeat seq f => Sys2Proof.Machine.execHeartbeat seq f s
  | .delta seq last recs trailer => Sys2Proof.Machine.execDelta seq last recs trailer s
  | .resync seq start recs => Sys2Proof.Machine.execResync seq start recs s
  | .resyncFrameSend => Sys2Proof.Machine.execResyncFrameSend s
  | .lag seq first => Sys2Proof.Machine.execLag seq first s
  | .hand seq tok => Sys2Proof.Machine.execHand seq tok s
  | .confirm seq claim dseq => Sys2Proof.Machine.execConfirm seq claim dseq s
  | .abort seq reason => Sys2Proof.Machine.execAbort seq reason s
  | .fault seq cls task code => Sys2Proof.Machine.execFault seq cls task code s
  | .resetReq seq key => Sys2Proof.Machine.execResetReq seq key s
  | .swapReq seq origin => Sys2Proof.Machine.execSwapReq seq origin s
  | .claimTake => Sys2Proof.Machine.execClaimTake s
  | .swapTimer => Sys2Proof.Machine.execSwapTimer s
  | .swapRetryTimer => Sys2Proof.Machine.execSwapRetryTimer s
  | .handSend => Sys2Proof.Machine.execHandSend s
  | .confirmTimeout => Sys2Proof.Machine.execConfirmTimeout s
  | .pairCmdSwap p => Sys2Proof.Machine.execPairCmdSwap p s
  | .pairCmdPartnerReset p => Sys2Proof.Machine.execPairCmdPartnerReset p s
  | .claimWireFrameSend => Sys2Proof.Machine.execClaimWireFrameSend s
  | .claimWireFrame bits => Sys2Proof.Machine.execClaimWireFrame bits s
  | .claimWireLoss => Sys2Proof.Machine.execClaimWireLoss s
  | .claimWireLongLoss => Sys2Proof.Machine.execClaimWireLongLoss s
  | .claimWireLongValid => Sys2Proof.Machine.execClaimWireLongValid s
  | .d2dHeartbeatTimer => Sys2Proof.Machine.execD2dHeartbeatTimer s
  | .d2dFrameSend => Sys2Proof.Machine.execD2dFrameSend s
  | .fieldCommandFrame seq f => Sys2Proof.Machine.execFieldCommandFrame seq f s
  | .fieldHeartbeatFrame seq f => Sys2Proof.Machine.execFieldHeartbeatFrame seq f s
  | .fieldResetFrame seq => Sys2Proof.Machine.execFieldResetFrame seq s
  | .fieldLoadFrame seq last hashOk => Sys2Proof.Machine.execFieldLoadFrame seq last hashOk s
  | .fieldConfigFrame seq cfg => Sys2Proof.Machine.execFieldConfigFrame seq cfg s
  | .statusFrameSend => Sys2Proof.Machine.execStatusFrameSend s
  | .statusFrame seq f => Sys2Proof.Machine.execStatusFrame seq f s
  | .fieldStatusTimeout => Sys2Proof.Machine.execFieldStatusTimeout s
  | .logicSilenceExpiry => Sys2Proof.Machine.execLogicSilenceExpiry s
  | .inputSample x => Sys2Proof.Machine.execInputSample x s
  | .vfieldSample x => Sys2Proof.Machine.execVfieldSample x s
  | .readbackMismatch ch mv => Sys2Proof.Machine.execReadbackMismatch ch mv s
  | .testPulseSlot ch => Sys2Proof.Machine.execTestPulseSlot ch s
  | .testPulseEnd ch mv => Sys2Proof.Machine.execTestPulseEnd ch mv s
  | .pullTestStart ch => Sys2Proof.Machine.execPullTestStart ch s
  | .pullTestEnd ch mv => Sys2Proof.Machine.execPullTestEnd ch mv s
  | .thermalShutdown ch ma => Sys2Proof.Machine.execThermalShutdown ch ma s
  | .thermalRestart ch => Sys2Proof.Machine.execThermalRestart ch s
  | .overload ch ma => Sys2Proof.Machine.execOverload ch ma s
  | .openOn ch ma => Sys2Proof.Machine.execOpenOn ch ma s
  | .fldRelease p => Sys2Proof.Machine.execFldRelease p s
  | .fldLatchRelease hi mask p => Sys2Proof.Machine.execFldLatchRelease hi mask p s
  | .arbitrationStart n => Sys2Proof.Machine.execArbitrationStart n s
  | .canFrameSent n delay => Sys2Proof.Machine.execCanFrameSent n delay s
  | .canFrameReceived n f x => Sys2Proof.Machine.execCanFrameReceived n f x s
  | .canError n e => Sys2Proof.Machine.execCanError n e s
  | .protocolException n => Sys2Proof.Machine.execProtocolException n s
  | .busIntegrationEnd n => Sys2Proof.Machine.execBusIntegrationEnd n s
  | .busOffRecovery n => Sys2Proof.Machine.execBusOffRecovery n s
  | .lifetimeExpiry n m => Sys2Proof.Machine.execLifetimeExpiry n m s
  | .ardDwellExpiry n => Sys2Proof.Machine.execArdDwellExpiry n s
  | .mbTxset n q mask p => Sys2Proof.Machine.execMbTxset n q mask p s
  | .mbTxabort n q mask p => Sys2Proof.Machine.execMbTxabort n q mask p s
  | .mbRxfPop n p => Sys2Proof.Machine.execMbRxfPop n p s
  | .goActive n p => Sys2Proof.Machine.execGoActive n p s
  | .mbRelease n p => Sys2Proof.Machine.execMbRelease n p s
  | .mbTimingWrite n value p => Sys2Proof.Machine.execMbTimingWrite n value p s
  | .mbErrcodeRead n p => Sys2Proof.Machine.execMbErrcodeRead n p s
  | .mbTimeLoRead n p => Sys2Proof.Machine.execMbTimeLoRead n p s
  | .ingressSetTimeout b => Sys2Proof.Machine.execIngressSetTimeout b s
  | .egressMailboxLoad n => Sys2Proof.Machine.execEgressMailboxLoad n s
  | .hostRead addr len => Sys2Proof.Machine.execHostRead addr len s
  | .hostWrite addr data => Sys2Proof.Machine.execHostWrite addr data s
  | .hostReadStatus => Sys2Proof.Machine.execHostReadStatus s
  | .xspiUnsupportedCommand cmd => Sys2Proof.Machine.execXspiUnsupportedCommand cmd s
  | .hostBell mask => Sys2Proof.Machine.execHostBell mask s
  | .hostFin mask p => Sys2Proof.Machine.execHostFin mask p s
  | .obtumUnknown ch tag cmd => Sys2Proof.Machine.execObtumUnknown ch tag cmd s
  | .identify ch tag body => Sys2Proof.Machine.execIdentify ch tag body s
  | .status ch tag body => Sys2Proof.Machine.execStatus ch tag body s
  | .eventsRead ch tag body => Sys2Proof.Machine.execEventsRead ch tag body s
  | .eventsClear ch tag body => Sys2Proof.Machine.execEventsClear ch tag body s
  | .nonce ch tag body => Sys2Proof.Machine.execNonce ch tag body s
  | .valuesRead ch tag body => Sys2Proof.Machine.execValuesRead ch tag body s
  | .valuesEdit ch tag body => Sys2Proof.Machine.execValuesEdit ch tag body s
  | .monitorsRead ch tag body => Sys2Proof.Machine.execMonitorsRead ch tag body s
  | .ageingRead ch tag body => Sys2Proof.Machine.execAgeingRead ch tag body s
  | .taskStart ch tag body => Sys2Proof.Machine.execTaskStart ch tag body s
  | .taskStop ch tag body => Sys2Proof.Machine.execTaskStop ch tag body s
  | .swap ch tag body => Sys2Proof.Machine.execSwap ch tag body s
  | .partnerReset ch tag body => Sys2Proof.Machine.execPartnerReset ch tag body s
  | .updateBegin ch tag body => Sys2Proof.Machine.execUpdateBegin ch tag body s
  | .updateBlock ch tag body => Sys2Proof.Machine.execUpdateBlock ch tag body s
  | .updateVerify ch tag body => Sys2Proof.Machine.execUpdateVerify ch tag body s
  | .updateActivate ch tag body => Sys2Proof.Machine.execUpdateActivate ch tag body s
  | .attest ch tag body => Sys2Proof.Machine.execAttest ch tag body s
  | .calendarSet ch tag body => Sys2Proof.Machine.execCalendarSet ch tag body s
  | .calendarRead ch tag body => Sys2Proof.Machine.execCalendarRead ch tag body s
  | .interruptEntry => Sys2Proof.Machine.execInterruptEntry s
  | .hfSvcPop p => Sys2Proof.Machine.execHfSvcPop p s
  | .hfLock p => Sys2Proof.Machine.execHfLock p s
  | .hfWinCtlWrite value p => Sys2Proof.Machine.execHfWinCtlWrite value p s
  | .svcEvent => Sys2Proof.Machine.execSvcEvent s
  | .svcCalread => Sys2Proof.Machine.execSvcCalread s
  | .svcStore => Sys2Proof.Machine.execSvcStore s
  | .svcIntegrator => Sys2Proof.Machine.execSvcIntegrator s
  | .canaryMeasurement isl ps => Sys2Proof.Machine.execCanaryMeasurement isl ps s
  | .ringOscillatorMeasurement isl ppm => Sys2Proof.Machine.execRingOscillatorMeasurement isl ppm s
  | .ledgerAccumulate tj mv => Sys2Proof.Machine.execLedgerAccumulate tj mv s
  | .marginPlanDue slacks => Sys2Proof.Machine.execMarginPlanDue slacks s
  | .ageCmd slacks p => Sys2Proof.Machine.execAgeCmd slacks p s
  | .ldoStep l => Sys2Proof.Machine.execLdoStep l s
  | .laneRemeasure l slacks => Sys2Proof.Machine.execLaneRemeasure l slacks s
  | .dividerStep l => Sys2Proof.Machine.execDividerStep l s
  | .monitorSample m value => Sys2Proof.Machine.execMonitorSample m value s
  | .hltSel value p => Sys2Proof.Machine.execHltSel value p s
  | .hltClr p => Sys2Proof.Machine.execHltClr p s
  | .hltXwidthHi value p => Sys2Proof.Machine.execHltXwidthHi value p s
  | .laneRailFault l => Sys2Proof.Machine.execLaneRailFault l s
  | .pilPage value p => Sys2Proof.Machine.execPilPage value p s
  | .pilGdata value p => Sys2Proof.Machine.execPilGdata value p s
  | .pilCommit p => Sys2Proof.Machine.execPilCommit p s
  | .pilCmdStore p => Sys2Proof.Machine.execPilCmdStore p s
  | .retainCopy => Sys2Proof.Machine.execRetainCopy s
  | .pillarStoreEnd t10us => Sys2Proof.Machine.execPillarStoreEnd t10us s
  | .pillarScrub pass => Sys2Proof.Machine.execPillarScrub pass s
  | .laneMemoryScrub l pass => Sys2Proof.Machine.execLaneMemoryScrub l pass s
  | .powerFailWarning => Sys2Proof.Machine.execPowerFailWarning s
  | .powerFailWarningClear => Sys2Proof.Machine.execPowerFailWarningClear s
  | .calendarTick => Sys2Proof.Machine.execCalendarTick s
  | .bkpSetMs value p => Sys2Proof.Machine.execBkpSetMs value p s
  | .bkpAlmMs value p => Sys2Proof.Machine.execBkpAlmMs value p s
  | .bkpPwronRel p => Sys2Proof.Machine.execBkpPwronRel p s
  | .pwronTimeout => Sys2Proof.Machine.execPwronTimeout s
  | .bkpCalFracRead p => Sys2Proof.Machine.execBkpCalFracRead p s
  | .backupSupplySwitch => Sys2Proof.Machine.execBackupSupplySwitch s
  | .backupSupplyReturn => Sys2Proof.Machine.execBackupSupplyReturn s
  | .validityLatchSet => Sys2Proof.Machine.execValidityLatchSet s
  | .lastTimeCommit => Sys2Proof.Machine.execLastTimeCommit s
  | .eventRecordWrite => Sys2Proof.Machine.execEventRecordWrite s
  | .rateWindowClose code => Sys2Proof.Machine.execRateWindowClose code s
  | .evtPost p => Sys2Proof.Machine.execEvtPost p s
  | .evtRsel value p => Sys2Proof.Machine.execEvtRsel value p s
  | .tapReset => Sys2Proof.Machine.execTapReset s
  | .extest => Sys2Proof.Machine.execExtest s
  | .idcode => Sys2Proof.Machine.execIdcode s
  | .samplePreload pins => Sys2Proof.Machine.execSamplePreload pins s
  | .clamp => Sys2Proof.Machine.execClamp s
  | .highz => Sys2Proof.Machine.execHighz s
  | .fieldtest => Sys2Proof.Machine.execFieldtest s
  | .fieldLoopbackUpdate drive => Sys2Proof.Machine.execFieldLoopbackUpdate drive s
  | .dbgauth => Sys2Proof.Machine.execDbgauth s
  | .bypass code => Sys2Proof.Machine.execBypass code s
  | .debugChallenge => Sys2Proof.Machine.execDebugChallenge s
  | .debugResponse scope keysel pubkey sig => Sys2Proof.Machine.execDebugResponse scope keysel pubkey sig s
  | .debugCheckComplete => Sys2Proof.Machine.execDebugCheckComplete s
  | .halt t => Sys2Proof.Machine.execHalt t s
  | .step t => Sys2Proof.Machine.execStep t s
  | .resume t => Sys2Proof.Machine.execResume t s
  | .readReg t addr => Sys2Proof.Machine.execReadReg t addr s
  | .writeReg t addr data => Sys2Proof.Machine.execWriteReg t addr data s
  | .readMem t addr => Sys2Proof.Machine.execReadMem t addr s
  | .writeMem t addr data => Sys2Proof.Machine.execWriteMem t addr data s
  | .burn word data => Sys2Proof.Machine.execBurn word data s
  | .keygen => Sys2Proof.Machine.execKeygen s
  | .nop l c => Sys2Proof.Machine.execNop l c s
  | .ld l c seg word bit => Sys2Proof.Machine.execLd l c seg word bit s
  | .ldn l c seg word bit => Sys2Proof.Machine.execLdn l c seg word bit s
  | .and l c seg word bit => Sys2Proof.Machine.execAnd l c seg word bit s
  | .andn l c seg word bit => Sys2Proof.Machine.execAndn l c seg word bit s
  | .or l c seg word bit => Sys2Proof.Machine.execOr l c seg word bit s
  | .orn l c seg word bit => Sys2Proof.Machine.execOrn l c seg word bit s
  | .xor l c seg word bit => Sys2Proof.Machine.execXor l c seg word bit s
  | .xorn l c seg word bit => Sys2Proof.Machine.execXorn l c seg word bit s
  | .st l c seg word bit => Sys2Proof.Machine.execSt l c seg word bit s
  | .stn l c seg word bit => Sys2Proof.Machine.execStn l c seg word bit s
  | .set l c seg word bit => Sys2Proof.Machine.execSet l c seg word bit s
  | .clr l c seg word bit => Sys2Proof.Machine.execClr l c seg word bit s
  | .ped l c seg word bit => Sys2Proof.Machine.execPed l c seg word bit s
  | .ned l c seg word bit => Sys2Proof.Machine.execNed l c seg word bit s
  | .ldp l c seg word bit => Sys2Proof.Machine.execLdp l c seg word bit s
  | .ldnp l c seg word bit => Sys2Proof.Machine.execLdnp l c seg word bit s
  | .push l c => Sys2Proof.Machine.execPush l c s
  | .pop l c => Sys2Proof.Machine.execPop l c s
  | .andp l c => Sys2Proof.Machine.execAndp l c s
  | .orp l c => Sys2Proof.Machine.execOrp l c s
  | .xorp l c => Sys2Proof.Machine.execXorp l c s
  | .setl l c => Sys2Proof.Machine.execSetl l c s
  | .clrl l c => Sys2Proof.Machine.execClrl l c s
  | .notl l c => Sys2Proof.Machine.execNotl l c s
  | .ldxb l c xreg bit => Sys2Proof.Machine.execLdxb l c xreg bit s
  | .stxb l c xreg bit => Sys2Proof.Machine.execStxb l c xreg bit s
  | .tstb l c seg word bit => Sys2Proof.Machine.execTstb l c seg word bit s
  | .add l c xd xa xb => Sys2Proof.Machine.execAdd l c xd xa xb s
  | .adc l c xd xa xb => Sys2Proof.Machine.execAdc l c xd xa xb s
  | .sub l c xd xa xb => Sys2Proof.Machine.execSub l c xd xa xb s
  | .sbc l c xd xa xb => Sys2Proof.Machine.execSbc l c xd xa xb s
  | .alu36And l c xd xa xb => Sys2Proof.Machine.execAlu36And l c xd xa xb s
  | .alu36Or l c xd xa xb => Sys2Proof.Machine.execAlu36Or l c xd xa xb s
  | .alu36Xor l c xd xa xb => Sys2Proof.Machine.execAlu36Xor l c xd xa xb s
  | .alu36Andn l c xd xa xb => Sys2Proof.Machine.execAlu36Andn l c xd xa xb s
  | .mov l c xd xa => Sys2Proof.Machine.execMov l c xd xa s
  | .not l c xd xa => Sys2Proof.Machine.execNot l c xd xa s
  | .neg l c xd xa => Sys2Proof.Machine.execNeg l c xd xa s
  | .abs l c xd xa => Sys2Proof.Machine.execAbs l c xd xa s
  | .mul l c xd xa xb => Sys2Proof.Machine.execMul l c xd xa xb s
  | .mulh l c xd xa xb => Sys2Proof.Machine.execMulh l c xd xa xb s
  | .mulhu l c xd xa xb => Sys2Proof.Machine.execMulhu l c xd xa xb s
  | .div l c xd xa xb => Sys2Proof.Machine.execDiv l c xd xa xb s
  | .divu l c xd xa xb => Sys2Proof.Machine.execDivu l c xd xa xb s
  | .rem l c xd xa xb => Sys2Proof.Machine.execRem l c xd xa xb s
  | .remu l c xd xa xb => Sys2Proof.Machine.execRemu l c xd xa xb s
  | .min l c xd xa xb => Sys2Proof.Machine.execMin l c xd xa xb s
  | .max l c xd xa xb => Sys2Proof.Machine.execMax l c xd xa xb s
  | .minu l c xd xa xb => Sys2Proof.Machine.execMinu l c xd xa xb s
  | .maxu l c xd xa xb => Sys2Proof.Machine.execMaxu l c xd xa xb s
  | .sel l c xd xa xb => Sys2Proof.Machine.execSel l c xd xa xb s
  | .addi l c xd xa imm => Sys2Proof.Machine.execAddi l c xd xa imm s
  | .andi l c xd xa imm => Sys2Proof.Machine.execAndi l c xd xa imm s
  | .ori l c xd xa imm => Sys2Proof.Machine.execOri l c xd xa imm s
  | .xori l c xd xa imm => Sys2Proof.Machine.execXori l c xd xa imm s
  | .movi l c xd imm => Sys2Proof.Machine.execMovi l c xd imm s
  | .movh l c xd imm => Sys2Proof.Machine.execMovh l c xd imm s
  | .add72 l c xd xa xb => Sys2Proof.Machine.execAdd72 l c xd xa xb s
  | .sub72 l c xd xa xb => Sys2Proof.Machine.execSub72 l c xd xa xb s
  | .neg72 l c xd xa => Sys2Proof.Machine.execNeg72 l c xd xa s
  | .mov72 l c xd xa => Sys2Proof.Machine.execMov72 l c xd xa s
  | .mulw l c xd xa xb => Sys2Proof.Machine.execMulw l c xd xa xb s
  | .mulwu l c xd xa xb => Sys2Proof.Machine.execMulwu l c xd xa xb s
  | .sext l c xd xa => Sys2Proof.Machine.execSext l c xd xa s
  | .zext l c xd xa => Sys2Proof.Machine.execZext l c xd xa s
  | .min72 l c xd xa xb => Sys2Proof.Machine.execMin72 l c xd xa xb s
  | .max72 l c xd xa xb => Sys2Proof.Machine.execMax72 l c xd xa xb s
  | .cmp l c xa xb => Sys2Proof.Machine.execCmp l c xa xb s
  | .cmn l c xa xb => Sys2Proof.Machine.execCmn l c xa xb s
  | .tst l c xa xb => Sys2Proof.Machine.execTst l c xa xb s
  | .cmp72 l c xa xb => Sys2Proof.Machine.execCmp72 l c xa xb s
  | .cmpi l c xa imm => Sys2Proof.Machine.execCmpi l c xa imm s
  | .lsl l c xd xa st => Sys2Proof.Machine.execLsl l c xd xa st s
  | .lsr l c xd xa st => Sys2Proof.Machine.execLsr l c xd xa st s
  | .asr l c xd xa st => Sys2Proof.Machine.execAsr l c xd xa st s
  | .rol l c xd xa st => Sys2Proof.Machine.execRol l c xd xa st s
  | .ror l c xd xa st => Sys2Proof.Machine.execRor l c xd xa st s
  | .lsl72 l c xd xa st => Sys2Proof.Machine.execLsl72 l c xd xa st s
  | .lsr72 l c xd xa st => Sys2Proof.Machine.execLsr72 l c xd xa st s
  | .asr72 l c xd xa st => Sys2Proof.Machine.execAsr72 l c xd xa st s
  | .rol72 l c xd xa st => Sys2Proof.Machine.execRol72 l c xd xa st s
  | .ror72 l c xd xa st => Sys2Proof.Machine.execRor72 l c xd xa st s
  | .ldw l c xd seg off => Sys2Proof.Machine.execLdw l c xd seg off s
  | .stw l c xd seg off => Sys2Proof.Machine.execStw l c xd seg off s
  | .ldd l c xd seg off => Sys2Proof.Machine.execLdd l c xd seg off s
  | .std l c xd seg off => Sys2Proof.Machine.execStd l c xd seg off s
  | .bmov l c segd segs dir => Sys2Proof.Machine.execBmov l c segd segs dir s
  | .bfill l c segd dir => Sys2Proof.Machine.execBfill l c segd dir s
  | .ton l c seg xp word => Sys2Proof.Machine.execTon l c seg xp word s
  | .tof l c seg xp word => Sys2Proof.Machine.execTof l c seg xp word s
  | .tp l c seg xp word => Sys2Proof.Machine.execTp l c seg xp word s
  | .ctu l c seg xp word => Sys2Proof.Machine.execCtu l c seg xp word s
  | .ctd l c seg xp word => Sys2Proof.Machine.execCtd l c seg xp word s
  | .acc l c seg xp word => Sys2Proof.Machine.execAcc l c seg xp word s
  | .load l c seg xp word => Sys2Proof.Machine.execLoad l c seg xp word s
  | .gett l c xd => Sys2Proof.Machine.execGett l c xd s
  | .b l c target => Sys2Proof.Machine.execB l c target s
  | .call l c target => Sys2Proof.Machine.execCall l c target s
  | .jr l c xa => Sys2Proof.Machine.execJr l c xa s
  | .callr l c xa => Sys2Proof.Machine.execCallr l c xa s
  | .ret l c => Sys2Proof.Machine.execRet l c s
  | .tstart l c ch xa => Sys2Proof.Machine.execTstart l c ch xa s
  | .twait l c ch xd => Sys2Proof.Machine.execTwait l c ch xd s
  | .tallyCheckIn l c => Sys2Proof.Machine.execTallyCheckIn l c s
  | .tallyToken l c token => Sys2Proof.Machine.execTallyToken l c token s
  | .lctlRead l c dirWrite xd index => Sys2Proof.Machine.execLctlRead l c dirWrite xd index s
  | .warnClr l c xd => Sys2Proof.Machine.execWarnClr l c xd s
  | .hfFlag l c xd => Sys2Proof.Machine.execHfFlag l c xd s
  | .feat l c xd n => Sys2Proof.Machine.execFeat l c xd n s
  | .svc l c code => Sys2Proof.Machine.execSvc l c code s
  | .egi l c block => Sys2Proof.Machine.execEgi l c block s
  | .fence l c => Sys2Proof.Machine.execFence l c s
  | .hfAdd c wd wa wb => Sys2Proof.Machine.execHfAdd c wd wa wb s
  | .hfAdc c wd wa wb => Sys2Proof.Machine.execHfAdc c wd wa wb s
  | .hfSub c wd wa wb => Sys2Proof.Machine.execHfSub c wd wa wb s
  | .hfSbc c wd wa wb => Sys2Proof.Machine.execHfSbc c wd wa wb s
  | .hfAnd c wd wa wb => Sys2Proof.Machine.execHfAnd c wd wa wb s
  | .hfOr c wd wa wb => Sys2Proof.Machine.execHfOr c wd wa wb s
  | .hfXor c wd wa wb => Sys2Proof.Machine.execHfXor c wd wa wb s
  | .hfAndn c wd wa wb => Sys2Proof.Machine.execHfAndn c wd wa wb s
  | .hfMov c wd wa => Sys2Proof.Machine.execHfMov c wd wa s
  | .hfNot c wd wa => Sys2Proof.Machine.execHfNot c wd wa s
  | .hfNeg c wd wa => Sys2Proof.Machine.execHfNeg c wd wa s
  | .hfLsl c wd wa wb => Sys2Proof.Machine.execHfLsl c wd wa wb s
  | .hfLsr c wd wa wb => Sys2Proof.Machine.execHfLsr c wd wa wb s
  | .hfAsr c wd wa wb => Sys2Proof.Machine.execHfAsr c wd wa wb s
  | .hfRol c wd wa wb => Sys2Proof.Machine.execHfRol c wd wa wb s
  | .hfRor c wd wa wb => Sys2Proof.Machine.execHfRor c wd wa wb s
  | .hfMul c wd wa wb => Sys2Proof.Machine.execHfMul c wd wa wb s
  | .hfMulhu c wd wa wb => Sys2Proof.Machine.execHfMulhu c wd wa wb s
  | .hfDivu c wd wa wb => Sys2Proof.Machine.execHfDivu c wd wa wb s
  | .hfRemu c wd wa wb => Sys2Proof.Machine.execHfRemu c wd wa wb s
  | .hfAddi c wd wa imm => Sys2Proof.Machine.execHfAddi c wd wa imm s
  | .hfAndi c wd wa imm => Sys2Proof.Machine.execHfAndi c wd wa imm s
  | .hfOri c wd wa imm => Sys2Proof.Machine.execHfOri c wd wa imm s
  | .hfXori c wd wa imm => Sys2Proof.Machine.execHfXori c wd wa imm s
  | .hfCmpi c wa imm => Sys2Proof.Machine.execHfCmpi c wa imm s
  | .hfMovi c wd imm => Sys2Proof.Machine.execHfMovi c wd imm s
  | .hfCmp c wa wb => Sys2Proof.Machine.execHfCmp c wa wb s
  | .hfCmn c wa wb => Sys2Proof.Machine.execHfCmn c wa wb s
  | .hfTst c wa wb => Sys2Proof.Machine.execHfTst c wa wb s
  | .hfLd c wd wa imm => Sys2Proof.Machine.execHfLd c wd wa imm s
  | .hfSt c wd wa imm => Sys2Proof.Machine.execHfSt c wd wa imm s
  | .hfLdi c wd wa imm => Sys2Proof.Machine.execHfLdi c wd wa imm s
  | .hfIn c wd wa imm => Sys2Proof.Machine.execHfIn c wd wa imm s
  | .hfOut c wd wa imm => Sys2Proof.Machine.execHfOut c wd wa imm s
  | .hfB c target => Sys2Proof.Machine.execHfB c target s
  | .hfCall c target => Sys2Proof.Machine.execHfCall c target s
  | .hfJr c wa => Sys2Proof.Machine.execHfJr c wa s
  | .hfCallr c wa => Sys2Proof.Machine.execHfCallr c wa s
  | .hfRet c => Sys2Proof.Machine.execHfRet c s
  | .hfReti c => Sys2Proof.Machine.execHfReti c s
  | .hfEi c => Sys2Proof.Machine.execHfEi c s
  | .hfDi c => Sys2Proof.Machine.execHfDi c s
  | .hfWait c => Sys2Proof.Machine.execHfWait c s
  | .hfSwi c n => Sys2Proof.Machine.execHfSwi c n s
  | .illegalOp l word => Sys2Proof.Machine.execIllegalOp l word s
  | .hfIllegal word => Sys2Proof.Machine.execHfIllegal word s
  | .vholdBelowStoreMinimum => Sys2Proof.Machine.execVholdBelowStoreMinimum s
  | .flashPortDone port1 => Sys2Proof.Machine.execFlashPortDone port1 s
  | .dirTmoExpiry => Sys2Proof.Machine.execDirTmoExpiry s
  | .cryptoEngineDone => Sys2Proof.Machine.execCryptoEngineDone s
  | .d2dFrameDiscard dir why => Sys2Proof.Machine.execD2dFrameDiscard dir why s
  | .tchiasFrameDiscard why => Sys2Proof.Machine.execTchiasFrameDiscard why s
  | .obtGapExpiry n => Sys2Proof.Machine.execObtGapExpiry n s

end Sys2Proof.Machine
end

