-- ==== Sys2Proof/Machine/Step.lean ====
section
/-! DEFINITION. One step of the block: the command at the front of the queue is taken and run. -/

namespace Sys2Proof.Machine

open Sys2Proof

/-- The state with a command put at the front of the queue where a word spells one; unchanged where it spells none.
DESIGN CHOICE, log entry 4. -/
def State.withFetchWord (s : State) (nbits w : Nat) : State :=
  match decodeTableWord nbits w with
  | some i => { s with pending := i :: s.pending }
  | none => s

/-- One step: the command at the front of the queue runs on the state with the queue's rest; an empty queue idles.
DESIGN CHOICE, log entries 1, 2. -/
def step (s : State) : Host.Outcome State Fault Refusal :=
  match s.pending with
  | [] => .next s
  | i :: rest => exec i { s with pending := rest }

end Sys2Proof.Machine
end

