-- ==== Sys2Proof/Safety.lean ====
section
/-! DEFINITION. What counts as a safe run, and the words in which the statements speak of a state: when a lane runs its next
instruction, when the Headframe does, and how an effect is written down. No meaning uses anything in this file. -/

namespace Sys2Proof.Safety

open Sys2Proof Sys2Proof.Machine

/-! ### Runs -/

/-- A step answers a next state. -/
def Advances (s : State) : Prop := ∃ t, step s = .next t

/-- A run of `k` steps neither faults nor is refused. -/
def SafeFor : Nat → State → Prop
  | 0, _ => True
  | k + 1, s => ∃ t, step s = .next t ∧ SafeFor k t

/-- R28, R31, R32, R33, R76, R489: every memory of the block stands in its canonical form, rising addresses and no listed zero.
DESIGN CHOICE, log entry 3. -/
def MemoriesCanonical (s : State) : Prop :=
  Memory.wf s.laneA.mem = true ∧ Memory.wf s.laneB.mem = true ∧ Memory.wf s.hf.imem = true ∧ Memory.wf s.hf.ram = true ∧
    Memory.wf s.msg = true ∧ Memory.wf s.ing.staging = true ∧ Memory.wf s.pil.sram = true ∧ Memory.wf s.pil.bank0.content = true ∧
    Memory.wf s.pil.bank1.content = true ∧ ∀ b m, s.pil.store = .storing b m → Memory.wf m = true

/-! ### Lanes -/

/-- A lane may retire its next instruction, for task `t` in its open cycle `k`: the lane is not at a count where it missed a commit
(R289), R122 to R124 and R274 to R276 let it retire, and the fetch through S0 raises nothing (R244). -/
def Ready (s : State) (l : LaneId) (t : Task) (k : LCycle) : Prop :=
  missedCommit s l = none ∧ mayRetire s l = some (t, k) ∧ fetchCheck s l = none

/-- A lane executes an instruction of condition `c` that acts inside the lane: the condition holds (R187), and Lane A neither took an
exception nor retired an outside effect at this count (R289). -/
def Runs (s : State) (l : LaneId) (c : Cond) (t : Task) (k : LCycle) : Prop :=
  Ready s l t k ∧ condHolds c (s.ctx l) k.fc k.fw = true ∧ oneSided s l false = none

/-- A lane executes a fence instruction of condition `c` (R168): it stands in a fence block, or executes the cycle in full (R171).
`eff` says whether the instruction has an outside effect (R230), for which Lane B also waits while a checkpoint verdict is pending
(R276). -/
def RunsFence (s : State) (l : LaneId) (c : Cond) (t : Task) (k : LCycle) (eff : Bool) : Prop :=
  Ready s l t k ∧ condHolds c (s.ctx l) k.fc k.fw = true ∧ oneSided s l eff = none ∧ effectWaits s l eff = false ∧
    unmarkedFence (s.lane l) k { fence := true } = false

/-- An instruction that changes the registers of its lane by `f` retires, and execution goes on with the next instruction. -/
abbrev retires (l : LaneId) (t : Task) (s : State) (f : Ctx → Ctx) : Out := .next (retire l t .seq (s.modCtx l f))

/-- An integer lies in the signed range of `w` bits. -/
def fits (w : Nat) (i : Int) : Bool := decide (-(2 : Int) ^ (w - 1) ≤ i ∧ i < (2 : Int) ^ (w - 1))

/-- A register is written. -/
def wr (xd : Reg) (r : W36) (x : Ctx) : Ctx := { x with x := x.x.set xd r }

/-- A pair is written (R210): the even register takes bits [35:0]. -/
def wrPair (xd : Reg) (r : W72) (x : Ctx) : Ctx :=
  { x with x := (x.x.set xd (r.extractLsb' 0 36)).set (xd + 1 : Reg).val (r.extractLsb' 36 36) (xd + 1 : Reg).isLt }

/-- The value of a pair. -/
def pair (x : Ctx) (r : Reg) : W72 := x.x[r + 1] ++ x.x[r]

/-- N and Z follow a result (R213, NZ). -/
def withNZ {w : Nat} (r : BitVec w) (x : Ctx) : Ctx := { x with n := r.msb, z := r == 0 }

/-- N and Z follow a result, C and V are as given (R213, NZCV). -/
def withNZCV {w : Nat} (r : BitVec w) (cf v : Bool) (x : Ctx) : Ctx := { x with n := r.msb, z := r == 0, c := cf, v := v }

/-- Execution goes on at the next instruction of the same rung block, no checkpoint is due at the new count (R288) and no replay budget
is reached (R175). -/
def WithinBlock (s : State) (l : LaneId) (k : LCycle) (target : Nat) : Prop :=
  let x := s.lane l
  let every := match s.cht.charter with | some c => c.head.checkpoint | none => 0
  target < progLength s l ∧ blockIdx x.blocks target = blockIdx x.blocks x.ctx.pc.toNat ∧
    (every = 0 ∨ (x.count + 1).toNat % every ≠ 0 ∨ isPaired s = false) ∧ (k.replayLimit = 0 ∨ k.replayCount + 1 < k.replayLimit)

/-- The lane, the condition and what the decoder knows of a lane instruction: an encoding error (R188, R210), a fence (R168), a branch
target and an outside effect (R230). None for every other command. -/
def laneForm (i : Instr) : Option (LaneId × Cond × Decoded) :=
  match i with
  | .ld l c _ _ bit => some (l, c, { illegal := decide (36 ≤ bit.toNat) })
  | .ldn l c _ _ bit => some (l, c, { illegal := decide (36 ≤ bit.toNat) })
  | .and l c _ _ bit => some (l, c, { illegal := decide (36 ≤ bit.toNat) })
  | .andn l c _ _ bit => some (l, c, { illegal := decide (36 ≤ bit.toNat) })
  | .or l c _ _ bit => some (l, c, { illegal := decide (36 ≤ bit.toNat) })
  | .orn l c _ _ bit => some (l, c, { illegal := decide (36 ≤ bit.toNat) })
  | .xor l c _ _ bit => some (l, c, { illegal := decide (36 ≤ bit.toNat) })
  | .xorn l c _ _ bit => some (l, c, { illegal := decide (36 ≤ bit.toNat) })
  | .st l c _ _ bit => some (l, c, { illegal := decide (36 ≤ bit.toNat) })
  | .stn l c _ _ bit => some (l, c, { illegal := decide (36 ≤ bit.toNat) })
  | .set l c _ _ bit => some (l, c, { illegal := decide (36 ≤ bit.toNat) })
  | .clr l c _ _ bit => some (l, c, { illegal := decide (36 ≤ bit.toNat) })
  | .ped l c _ _ bit => some (l, c, { illegal := decide (36 ≤ bit.toNat) })
  | .ned l c _ _ bit => some (l, c, { illegal := decide (36 ≤ bit.toNat) })
  | .ldp l c _ _ bit => some (l, c, { illegal := decide (36 ≤ bit.toNat) })
  | .ldnp l c _ _ bit => some (l, c, { illegal := decide (36 ≤ bit.toNat) })
  | .ldxb l c _ bit => some (l, c, { illegal := decide (36 ≤ bit.toNat) })
  | .stxb l c _ bit => some (l, c, { illegal := decide (36 ≤ bit.toNat) })
  | .tstb l c _ _ bit => some (l, c, { illegal := decide (36 ≤ bit.toNat) })
  | .add72 l c xd xa xb => some (l, c, { illegal := oddPair xd || oddPair xa || oddPair xb })
  | .sub72 l c xd xa xb => some (l, c, { illegal := oddPair xd || oddPair xa || oddPair xb })
  | .neg72 l c xd xa => some (l, c, { illegal := oddPair xd || oddPair xa })
  | .mov72 l c xd xa => some (l, c, { illegal := oddPair xd || oddPair xa })
  | .mulw l c xd _ _ => some (l, c, { illegal := oddPair xd })
  | .mulwu l c xd _ _ => some (l, c, { illegal := oddPair xd })
  | .sext l c xd _ => some (l, c, { illegal := oddPair xd })
  | .zext l c xd _ => some (l, c, { illegal := oddPair xd })
  | .min72 l c xd xa xb => some (l, c, { illegal := oddPair xd || oddPair xa || oddPair xb })
  | .max72 l c xd xa xb => some (l, c, { illegal := oddPair xd || oddPair xa || oddPair xb })
  | .cmp72 l c xa xb => some (l, c, { illegal := oddPair xa || oddPair xb })
  | .lsl72 l c xd xa _ => some (l, c, { illegal := oddPair xd || oddPair xa })
  | .lsr72 l c xd xa _ => some (l, c, { illegal := oddPair xd || oddPair xa })
  | .asr72 l c xd xa _ => some (l, c, { illegal := oddPair xd || oddPair xa })
  | .rol72 l c xd xa _ => some (l, c, { illegal := oddPair xd || oddPair xa })
  | .ror72 l c xd xa _ => some (l, c, { illegal := oddPair xd || oddPair xa })
  | .ldd l c xd _ _ => some (l, c, { illegal := oddPair xd })
  | .std l c xd _ _ => some (l, c, { illegal := oddPair xd })
  | .ton l c _ xp _ => some (l, c, { illegal := oddPair xp })
  | .tof l c _ xp _ => some (l, c, { illegal := oddPair xp })
  | .tp l c _ xp _ => some (l, c, { illegal := oddPair xp })
  | .ctu l c _ xp _ => some (l, c, { illegal := oddPair xp })
  | .ctd l c _ xp _ => some (l, c, { illegal := oddPair xp })
  | .acc l c _ xp _ => some (l, c, { illegal := oddPair xp })
  | .load l c _ xp _ => some (l, c, { illegal := oddPair xp })
  | .gett l c xd => some (l, c, { illegal := oddPair xd })
  | .b l c target => some (l, c, { target := some target.toNat })
  | .tstart l c _ _ => some (l, c, { fence := true, effect := true })
  | .twait l c _ _ => some (l, c, { fence := true })
  | .tallyCheckIn l c => some (l, c, { fence := true, effect := true })
  | .lctlRead l c dirWrite _ _ => some (l, c, { fence := dirWrite, effect := dirWrite })
  | .warnClr l c _ => some (l, c, { fence := true, effect := true })
  | .hfFlag l c _ => some (l, c, { fence := true, effect := true })
  | .svc l c _ => some (l, c, { fence := true, effect := true })
  | .egi l c _ => some (l, c, { fence := true, effect := true })
  | .fence l c => some (l, c, { fence := true })
  | .illegalOp l word => if laneWordIllegal word then some (l, .al, { illegal := true }) else none
  | .nop l c => some (l, c, {})
  | .push l c => some (l, c, {})
  | .pop l c => some (l, c, {})
  | .andp l c => some (l, c, {})
  | .orp l c => some (l, c, {})
  | .xorp l c => some (l, c, {})
  | .setl l c => some (l, c, {})
  | .clrl l c => some (l, c, {})
  | .notl l c => some (l, c, {})
  | .add l c _ _ _ => some (l, c, {})
  | .adc l c _ _ _ => some (l, c, {})
  | .sub l c _ _ _ => some (l, c, {})
  | .sbc l c _ _ _ => some (l, c, {})
  | .alu36And l c _ _ _ => some (l, c, {})
  | .alu36Or l c _ _ _ => some (l, c, {})
  | .alu36Xor l c _ _ _ => some (l, c, {})
  | .alu36Andn l c _ _ _ => some (l, c, {})
  | .mov l c _ _ => some (l, c, {})
  | .not l c _ _ => some (l, c, {})
  | .neg l c _ _ => some (l, c, {})
  | .abs l c _ _ => some (l, c, {})
  | .mul l c _ _ _ => some (l, c, {})
  | .mulh l c _ _ _ => some (l, c, {})
  | .mulhu l c _ _ _ => some (l, c, {})
  | .div l c _ _ _ => some (l, c, {})
  | .divu l c _ _ _ => some (l, c, {})
  | .rem l c _ _ _ => some (l, c, {})
  | .remu l c _ _ _ => some (l, c, {})
  | .min l c _ _ _ => some (l, c, {})
  | .max l c _ _ _ => some (l, c, {})
  | .minu l c _ _ _ => some (l, c, {})
  | .maxu l c _ _ _ => some (l, c, {})
  | .sel l c _ _ _ => some (l, c, {})
  | .addi l c _ _ _ => some (l, c, {})
  | .andi l c _ _ _ => some (l, c, {})
  | .ori l c _ _ _ => some (l, c, {})
  | .xori l c _ _ _ => some (l, c, {})
  | .movi l c _ _ => some (l, c, {})
  | .movh l c _ _ => some (l, c, {})
  | .cmp l c _ _ => some (l, c, {})
  | .cmn l c _ _ => some (l, c, {})
  | .tst l c _ _ => some (l, c, {})
  | .cmpi l c _ _ => some (l, c, {})
  | .lsl l c _ _ _ => some (l, c, {})
  | .lsr l c _ _ _ => some (l, c, {})
  | .asr l c _ _ _ => some (l, c, {})
  | .rol l c _ _ _ => some (l, c, {})
  | .ror l c _ _ _ => some (l, c, {})
  | .ldw l c _ _ _ => some (l, c, {})
  | .stw l c _ _ _ => some (l, c, {})
  | .bmov l c _ _ _ => some (l, c, {})
  | .bfill l c _ _ => some (l, c, {})
  | .call l c _ => some (l, c, {})
  | .jr l c _ => some (l, c, {})
  | .callr l c _ => some (l, c, {})
  | .ret l c => some (l, c, {})
  | .tallyToken l c _ => some (l, c, {})
  | .feat l c _ _ => some (l, c, {})
  | .powerOn .. | .brownOut .. | .externalReset .. | .pllLossOfLock .. | .sysRstWarm .. | .sysRstCold .. | .resetRollback
  | .resetRelease | .coldStart .. | .warmStart .. | .startWatchdogExpiry | .judgingWindow .. | .judgingTimeout | .forcedSwitch
  | .pllLock | .rampStep .. | .referenceWatchWindow .. | .clkDivSet .. | .gateClose .. | .gateOpen .. | .seamStuckTimeout ..
  | .pulseSeamEvent .. | .seamPstatClear .. | .portWrite .. | .tick | .cycleStart .. | .snapshotInstant .. | .overrun ..
  | .commit .. | .laneBDelivery | .laneBCommit .. | .preEmption .. | .contextRestore .. | .ingressApplication ..
  | .freshnessExpiry .. | .editApplication | .replayInstance .. | .forwardPassResume .. | .provisionalExceptionTaken ..
  | .fullReexecution .. | .journalRecordRetire .. | .assayVerdict .. | .catchupLimitExpiry | .assayRollback
  | .standbyInjectionTest .. | .tramElement | .trmGo .. | .trmResume .. | .trmAbort .. | .wdtKeyLand .. | .watchdogExpiry
  | .watchdogClockStop .. | .watchdogPrewarning | .heartbeatTimer | .heartbeatMissed | .helloTimer | .pairWaitExpiry
  | .tchiasFrameSend | .hello .. | .heartbeat .. | .delta .. | .resync .. | .resyncFrameSend | .lag .. | .hand .. | .confirm ..
  | .abort .. | .fault .. | .resetReq .. | .swapReq .. | .claimTake | .swapTimer | .swapRetryTimer | .handSend | .confirmTimeout
  | .pairCmdSwap .. | .pairCmdPartnerReset .. | .claimWireFrameSend | .claimWireFrame .. | .claimWireLoss | .claimWireLongLoss
  | .claimWireLongValid | .d2dHeartbeatTimer | .d2dFrameSend | .fieldCommandFrame .. | .fieldHeartbeatFrame ..
  | .fieldResetFrame .. | .fieldLoadFrame .. | .fieldConfigFrame .. | .statusFrameSend | .statusFrame .. | .fieldStatusTimeout
  | .logicSilenceExpiry | .inputSample .. | .vfieldSample .. | .readbackMismatch .. | .testPulseSlot .. | .testPulseEnd ..
  | .pullTestStart .. | .pullTestEnd .. | .thermalShutdown .. | .thermalRestart .. | .overload .. | .openOn .. | .fldRelease ..
  | .fldLatchRelease .. | .arbitrationStart .. | .canFrameSent .. | .canFrameReceived .. | .canError .. | .protocolException ..
  | .busIntegrationEnd .. | .busOffRecovery .. | .lifetimeExpiry .. | .ardDwellExpiry .. | .mbTxset .. | .mbTxabort ..
  | .mbRxfPop .. | .goActive .. | .mbRelease .. | .mbTimingWrite .. | .mbErrcodeRead .. | .mbTimeLoRead ..
  | .ingressSetTimeout .. | .egressMailboxLoad .. | .hostRead .. | .hostWrite .. | .hostReadStatus | .xspiUnsupportedCommand ..
  | .hostBell .. | .hostFin .. | .obtumUnknown .. | .identify .. | .status .. | .eventsRead .. | .eventsClear .. | .nonce ..
  | .valuesRead .. | .valuesEdit .. | .monitorsRead .. | .ageingRead .. | .taskStart .. | .taskStop .. | .swap ..
  | .partnerReset .. | .updateBegin .. | .updateBlock .. | .updateVerify .. | .updateActivate .. | .attest .. | .calendarSet ..
  | .calendarRead .. | .interruptEntry | .hfSvcPop .. | .hfLock .. | .hfWinCtlWrite .. | .svcEvent | .svcCalread | .svcStore
  | .svcIntegrator | .canaryMeasurement .. | .ringOscillatorMeasurement .. | .ledgerAccumulate .. | .marginPlanDue ..
  | .ageCmd .. | .ldoStep .. | .laneRemeasure .. | .dividerStep .. | .monitorSample .. | .hltSel .. | .hltClr ..
  | .hltXwidthHi .. | .laneRailFault .. | .pilPage .. | .pilGdata .. | .pilCommit .. | .pilCmdStore .. | .retainCopy
  | .pillarStoreEnd .. | .pillarScrub .. | .laneMemoryScrub .. | .powerFailWarning | .powerFailWarningClear | .calendarTick
  | .bkpSetMs .. | .bkpAlmMs .. | .bkpPwronRel .. | .pwronTimeout | .bkpCalFracRead .. | .backupSupplySwitch
  | .backupSupplyReturn | .validityLatchSet | .lastTimeCommit | .eventRecordWrite | .rateWindowClose .. | .evtPost ..
  | .evtRsel .. | .tapReset | .extest | .idcode | .samplePreload .. | .clamp | .highz | .fieldtest | .fieldLoopbackUpdate ..
  | .dbgauth | .bypass .. | .debugChallenge | .debugResponse .. | .debugCheckComplete | .halt .. | .step .. | .resume ..
  | .readReg .. | .writeReg .. | .readMem .. | .writeMem .. | .burn .. | .keygen | .hfAdd .. | .hfAdc .. | .hfSub .. | .hfSbc ..
  | .hfAnd .. | .hfOr .. | .hfXor .. | .hfAndn .. | .hfMov .. | .hfNot .. | .hfNeg .. | .hfLsl .. | .hfLsr .. | .hfAsr ..
  | .hfRol .. | .hfRor .. | .hfMul .. | .hfMulhu .. | .hfDivu .. | .hfRemu .. | .hfAddi .. | .hfAndi .. | .hfOri .. | .hfXori ..
  | .hfCmpi .. | .hfMovi .. | .hfCmp .. | .hfCmn .. | .hfTst .. | .hfLd .. | .hfSt .. | .hfLdi .. | .hfIn .. | .hfOut ..
  | .hfB .. | .hfCall .. | .hfJr .. | .hfCallr .. | .hfRet .. | .hfReti .. | .hfEi .. | .hfDi .. | .hfWait .. | .hfSwi ..
  | .hfIllegal .. | .vholdBelowStoreMinimum | .flashPortDone .. | .dirTmoExpiry | .cryptoEngineDone | .d2dFrameDiscard ..
  | .tchiasFrameDiscard .. | .obtGapExpiry .. => none

/-! ### The Headframe -/

/-- The Headframe executes an instruction of condition `c`: it fetches (R361, R368, R572) and the condition holds (R360). -/
def HfRuns (s : State) (c : HCond) : Prop := hfFetches s = true ∧ hcondHolds s c = true

/-- A Headframe instruction changes the Headframe's registers by `f`, and execution goes on with the next instruction. -/
abbrev hfRetires (s : State) (f : HfState → HfState) : Out :=
  .next { s with hf := { f s.hf with stepOne := false, pc := s.hf.pc + 1, p := decide (0x6000 ≤ (s.hf.pc + 1).toNat) } }

/-- The state in which an instruction that a debugger steps executes: the step is used up (R572). -/
abbrev hfNow (s : State) : State := { s with hf := { s.hf with stepOne := false } }

/-- A Headframe register is written. -/
def hwr (wd : Reg) (r : W16) (h : HfState) : HfState := { h with w := h.w.set wd r }

/-- N and Z follow a result. -/
def hNZ (r : W16) (h : HfState) : HfState := { h with n := r.msb, z := r == 0 }

/-- N and Z follow a result, C and V are as given. -/
def hNZCV (r : W16) (cf v : Bool) (h : HfState) : HfState := { h with n := r.msb, z := r == 0, c := cf, v := v }

/-- The condition of a Headframe instruction. None for every other command. -/
def hfForm (i : Instr) : Option HCond :=
  match i with
  | .hfAdd c _ _ _ => some c
  | .hfAdc c _ _ _ => some c
  | .hfSub c _ _ _ => some c
  | .hfSbc c _ _ _ => some c
  | .hfAnd c _ _ _ => some c
  | .hfOr c _ _ _ => some c
  | .hfXor c _ _ _ => some c
  | .hfAndn c _ _ _ => some c
  | .hfMov c _ _ => some c
  | .hfNot c _ _ => some c
  | .hfNeg c _ _ => some c
  | .hfLsl c _ _ _ => some c
  | .hfLsr c _ _ _ => some c
  | .hfAsr c _ _ _ => some c
  | .hfRol c _ _ _ => some c
  | .hfRor c _ _ _ => some c
  | .hfMul c _ _ _ => some c
  | .hfMulhu c _ _ _ => some c
  | .hfDivu c _ _ _ => some c
  | .hfRemu c _ _ _ => some c
  | .hfAddi c _ _ _ => some c
  | .hfAndi c _ _ _ => some c
  | .hfOri c _ _ _ => some c
  | .hfXori c _ _ _ => some c
  | .hfCmpi c _ _ => some c
  | .hfMovi c _ _ => some c
  | .hfCmp c _ _ => some c
  | .hfCmn c _ _ => some c
  | .hfTst c _ _ => some c
  | .hfLd c _ _ _ => some c
  | .hfSt c _ _ _ => some c
  | .hfLdi c _ _ _ => some c
  | .hfIn c _ _ _ => some c
  | .hfOut c _ _ _ => some c
  | .hfB c _ => some c
  | .hfCall c _ => some c
  | .hfJr c _ => some c
  | .hfCallr c _ => some c
  | .hfRet c => some c
  | .hfReti c => some c
  | .hfEi c => some c
  | .hfDi c => some c
  | .hfWait c => some c
  | .hfSwi c _ => some c
  | .powerOn .. | .brownOut .. | .externalReset .. | .pllLossOfLock .. | .sysRstWarm .. | .sysRstCold .. | .resetRollback
  | .resetRelease | .coldStart .. | .warmStart .. | .startWatchdogExpiry | .judgingWindow .. | .judgingTimeout | .forcedSwitch
  | .pllLock | .rampStep .. | .referenceWatchWindow .. | .clkDivSet .. | .gateClose .. | .gateOpen .. | .seamStuckTimeout ..
  | .pulseSeamEvent .. | .seamPstatClear .. | .portWrite .. | .tick | .cycleStart .. | .snapshotInstant .. | .overrun ..
  | .commit .. | .laneBDelivery | .laneBCommit .. | .preEmption .. | .contextRestore .. | .ingressApplication ..
  | .freshnessExpiry .. | .editApplication | .replayInstance .. | .forwardPassResume .. | .provisionalExceptionTaken ..
  | .fullReexecution .. | .journalRecordRetire .. | .assayVerdict .. | .catchupLimitExpiry | .assayRollback
  | .standbyInjectionTest .. | .tramElement | .trmGo .. | .trmResume .. | .trmAbort .. | .wdtKeyLand .. | .watchdogExpiry
  | .watchdogClockStop .. | .watchdogPrewarning | .heartbeatTimer | .heartbeatMissed | .helloTimer | .pairWaitExpiry
  | .tchiasFrameSend | .hello .. | .heartbeat .. | .delta .. | .resync .. | .resyncFrameSend | .lag .. | .hand .. | .confirm ..
  | .abort .. | .fault .. | .resetReq .. | .swapReq .. | .claimTake | .swapTimer | .swapRetryTimer | .handSend | .confirmTimeout
  | .pairCmdSwap .. | .pairCmdPartnerReset .. | .claimWireFrameSend | .claimWireFrame .. | .claimWireLoss | .claimWireLongLoss
  | .claimWireLongValid | .d2dHeartbeatTimer | .d2dFrameSend | .fieldCommandFrame .. | .fieldHeartbeatFrame ..
  | .fieldResetFrame .. | .fieldLoadFrame .. | .fieldConfigFrame .. | .statusFrameSend | .statusFrame .. | .fieldStatusTimeout
  | .logicSilenceExpiry | .inputSample .. | .vfieldSample .. | .readbackMismatch .. | .testPulseSlot .. | .testPulseEnd ..
  | .pullTestStart .. | .pullTestEnd .. | .thermalShutdown .. | .thermalRestart .. | .overload .. | .openOn .. | .fldRelease ..
  | .fldLatchRelease .. | .arbitrationStart .. | .canFrameSent .. | .canFrameReceived .. | .canError .. | .protocolException ..
  | .busIntegrationEnd .. | .busOffRecovery .. | .lifetimeExpiry .. | .ardDwellExpiry .. | .mbTxset .. | .mbTxabort ..
  | .mbRxfPop .. | .goActive .. | .mbRelease .. | .mbTimingWrite .. | .mbErrcodeRead .. | .mbTimeLoRead ..
  | .ingressSetTimeout .. | .egressMailboxLoad .. | .hostRead .. | .hostWrite .. | .hostReadStatus | .xspiUnsupportedCommand ..
  | .hostBell .. | .hostFin .. | .obtumUnknown .. | .identify .. | .status .. | .eventsRead .. | .eventsClear .. | .nonce ..
  | .valuesRead .. | .valuesEdit .. | .monitorsRead .. | .ageingRead .. | .taskStart .. | .taskStop .. | .swap ..
  | .partnerReset .. | .updateBegin .. | .updateBlock .. | .updateVerify .. | .updateActivate .. | .attest .. | .calendarSet ..
  | .calendarRead .. | .interruptEntry | .hfSvcPop .. | .hfLock .. | .hfWinCtlWrite .. | .svcEvent | .svcCalread | .svcStore
  | .svcIntegrator | .canaryMeasurement .. | .ringOscillatorMeasurement .. | .ledgerAccumulate .. | .marginPlanDue ..
  | .ageCmd .. | .ldoStep .. | .laneRemeasure .. | .dividerStep .. | .monitorSample .. | .hltSel .. | .hltClr ..
  | .hltXwidthHi .. | .laneRailFault .. | .pilPage .. | .pilGdata .. | .pilCommit .. | .pilCmdStore .. | .retainCopy
  | .pillarStoreEnd .. | .pillarScrub .. | .laneMemoryScrub .. | .powerFailWarning | .powerFailWarningClear | .calendarTick
  | .bkpSetMs .. | .bkpAlmMs .. | .bkpPwronRel .. | .pwronTimeout | .bkpCalFracRead .. | .backupSupplySwitch
  | .backupSupplyReturn | .validityLatchSet | .lastTimeCommit | .eventRecordWrite | .rateWindowClose .. | .evtPost ..
  | .evtRsel .. | .tapReset | .extest | .idcode | .samplePreload .. | .clamp | .highz | .fieldtest | .fieldLoopbackUpdate ..
  | .dbgauth | .bypass .. | .debugChallenge | .debugResponse .. | .debugCheckComplete | .halt .. | .step .. | .resume ..
  | .readReg .. | .writeReg .. | .readMem .. | .writeMem .. | .burn .. | .keygen | .nop .. | .ld .. | .ldn .. | .and ..
  | .andn .. | .or .. | .orn .. | .xor .. | .xorn .. | .st .. | .stn .. | .set .. | .clr .. | .ped .. | .ned .. | .ldp ..
  | .ldnp .. | .push .. | .pop .. | .andp .. | .orp .. | .xorp .. | .setl .. | .clrl .. | .notl .. | .ldxb .. | .stxb ..
  | .tstb .. | .add .. | .adc .. | .sub .. | .sbc .. | .alu36And .. | .alu36Or .. | .alu36Xor .. | .alu36Andn .. | .mov ..
  | .not .. | .neg .. | .abs .. | .mul .. | .mulh .. | .mulhu .. | .div .. | .divu .. | .rem .. | .remu .. | .min .. | .max ..
  | .minu .. | .maxu .. | .sel .. | .addi .. | .andi .. | .ori .. | .xori .. | .movi .. | .movh .. | .add72 .. | .sub72 ..
  | .neg72 .. | .mov72 .. | .mulw .. | .mulwu .. | .sext .. | .zext .. | .min72 .. | .max72 .. | .cmp .. | .cmn .. | .tst ..
  | .cmp72 .. | .cmpi .. | .lsl .. | .lsr .. | .asr .. | .rol .. | .ror .. | .lsl72 .. | .lsr72 .. | .asr72 .. | .rol72 ..
  | .ror72 .. | .ldw .. | .stw .. | .ldd .. | .std .. | .bmov .. | .bfill .. | .ton .. | .tof .. | .tp .. | .ctu .. | .ctd ..
  | .acc .. | .load .. | .gett .. | .b .. | .call .. | .jr .. | .callr .. | .ret .. | .tstart .. | .twait .. | .tallyCheckIn ..
  | .tallyToken .. | .lctlRead .. | .warnClr .. | .hfFlag .. | .feat .. | .svc .. | .egi .. | .fence .. | .illegalOp ..
  | .hfIllegal .. | .vholdBelowStoreMinimum | .flashPortDone .. | .dirTmoExpiry | .cryptoEngineDone | .d2dFrameDiscard ..
  | .tchiasFrameDiscard .. | .obtGapExpiry .. => none

end Sys2Proof.Safety
end

