-- ==== Sys2Proof/WellFormed.lean ====
section
/-! DEFINITION. Which operands the rules give to a command. `exec` is total: these checks say what a well-formed command is, and
no meaning relies on them. -/

namespace Sys2Proof

open Sys2Proof.Machine

/-- A pair names an even register (R215). -/
def evenReg (r : Reg) : Bool := r.val % 2 == 0

/-- A bit index lies in 0-35 (R192). -/
def bitIx (b : BitVec 6) : Bool := decide (b.toNat < 36)

/-- The instruction codes of the test access port that R563 defines.
DESIGN CHOICE, log entry 7. -/
def instrCode (c : Byte) : Bool := decide (c.toNat < 5) || c == 0x20#8 || c == 0x21#8 || c == 0xFF#8

/-- A slot header's fields have their sizes (R533). -/
def SlotHeader.wf (h : SlotHeader) : Bool := decide (h.tag.length = 16) && decide (h.wrap.length = 128)

/-- A slot stores whole blocks (R533). -/
def FlashSlot.wf (f : FlashSlot) : Bool :=
  f.blocks.all (fun b => decide (b.length ≤ 4096)) && (match f.hdr with | some h => h.wf | none => true)

/-- Hashes of a directory entry have 64 bytes (R538). -/
def DirEntry.wf (e : DirEntry) : Bool := decide (e.hashA.length = 64) && decide (e.hashB.length = 64)

/-- A directory record's entries have their sizes (R538). -/
def DirRecord.wf (d : DirRecord) : Bool := d.firmware.wf && d.charter.wf && d.program.wf

/-- What stands on the flash devices has the sizes of R532 to R538. -/
def Flash.wf (f : Flash) : Bool :=
  [f.fwA, f.fwB, f.chA, f.chB, f.prA, f.prB].all FlashSlot.wf &&
  (match f.dir0 with | some d => d.wf | none => true) && (match f.dir1 with | some d => d.wf | none => true)

/-- What a start meets is what its rules allow: the devices, an injection pattern of R298, and instruction RAM addresses. -/
def StartEnv.wf (e : StartEnv) : Bool :=
  (match e.flash with | some f => f.wf | none => true) && decide (e.injection.toNat ≤ 169) &&
    e.imem.all (fun w => decide (w.1 < 0x8000)) && decide (e.fieldRefs.length = 32) && decide (e.fieldPulses.length = 32)

/-- A hand token has 16 task records and 512 egress counters (R348). -/
def HandToken.wf (t : HandToken) : Bool := decide (t.tasks.length = 16) && decide (t.seqs.length = 512)

/-- A CONFIG frame carries one record for each channel (R65, R391). -/
def FieldConfig.wf : FieldConfig → Bool
  | .records recs silence _ => decide (recs.length = 32) && decide (1 ≤ silence.toNat) && decide (silence.toNat ≤ 250)
  | .expert _ _ => true

/-- Data bytes of a DLC (R404). -/
def dlcLength (fdf : Bool) (dlc : BitVec 4) : Nat :=
  if dlc.toNat ≤ 8 then dlc.toNat else if fdf then [12, 16, 20, 24, 32, 48, 64].getD (dlc.toNat - 9) 0 else 8

/-- A bus frame holds the data bytes of its DLC, a remote frame none (R404). -/
def CanFrame.wf (f : CanFrame) : Bool :=
  decide (f.data.length = if f.rtr then 0 else dlcLength f.fdf f.dlc) && !(f.fdf && f.rtr) && !(!f.fdf && f.brs)

/-- A command is well formed: its operands are ones that its rule gives it.
DESIGN CHOICE, log entry 7. -/
def Instr.wf (i : Instr) : Bool :=
  match i with
  | .coldStart env => env.wf
  | .warmStart env => env.wf
  | .standbyInjectionTest firstFail => decide (firstFail.toNat ≤ 169)
  | .delta _ last recs trailer => decide (recs.length ≤ 256) && recs.all (fun r => decide (r.1 < 2 ^ 22)) && last == trailer.isSome
  | .resync _ _ recs => decide (0 < recs.length) && decide (recs.length ≤ 255)
  | .hand _ tok => tok.wf
  | .fieldConfigFrame _ cfg => cfg.wf
  | .inputSample x => decide (x.mv.length = 32) && decide (x.ma.length = 32)
  | .canFrameReceived _ f _ => f.wf
  | .hostRead _ len => decide (0 < len) && decide (len ≤ 4096)
  | .hostWrite addr data => decide (0 < data.length) && decide (data.length ≤ 4096) && data.length % 2 == 0 && addr.toNat % 2 == 0
  | .xspiUnsupportedCommand cmd => !(cmd == 0xEE#8 || cmd == 0x12#8 || cmd == 0x05#8)
  | .obtumUnknown _ _ cmd => cmd == 0#16 || decide (0x14 < cmd.toNat)
  | .marginPlanDue slacks => decide (slacks.length = 48)
  | .ageCmd slacks _ => decide (slacks.length = 48)
  | .laneRemeasure _ slacks => decide (slacks.length = 8)
  | .pillarScrub pass => pass.finds.all (fun f => decide (f.address < 2 ^ 20)) && pass.upsets.all (fun a => decide (a < 2 ^ 20))
  | .laneMemoryScrub _ pass => pass.finds.all (fun f => decide (f.address < 0x220000)) &&
      pass.upsets.all (fun u => match u with
        | .bit a => decide (a < 0x220000)
        | .word a => decide (a < 0x220000)
        | .descriptor i => decide (i < 256)
        | _ => true)
  | .bypass code => !instrCode code || code == 0xFF#8
  | .debugResponse _ _ pubkey sig => decide (pubkey.length = 57) && decide (sig.length = 114)
  | .burn word _ => decide (word.toNat < 44)
  | .ld _ _ _ _ bit => bitIx bit
  | .ldn _ _ _ _ bit => bitIx bit
  | .and _ _ _ _ bit => bitIx bit
  | .andn _ _ _ _ bit => bitIx bit
  | .or _ _ _ _ bit => bitIx bit
  | .orn _ _ _ _ bit => bitIx bit
  | .xor _ _ _ _ bit => bitIx bit
  | .xorn _ _ _ _ bit => bitIx bit
  | .st _ _ _ _ bit => bitIx bit
  | .stn _ _ _ _ bit => bitIx bit
  | .set _ _ _ _ bit => bitIx bit
  | .clr _ _ _ _ bit => bitIx bit
  | .ped _ _ _ _ bit => bitIx bit
  | .ned _ _ _ _ bit => bitIx bit
  | .ldp _ _ _ _ bit => bitIx bit
  | .ldnp _ _ _ _ bit => bitIx bit
  | .ldxb _ _ _ bit => bitIx bit
  | .stxb _ _ _ bit => bitIx bit
  | .tstb _ _ _ _ bit => bitIx bit
  | .add72 _ _ xd xa xb => evenReg xd && evenReg xa && evenReg xb
  | .sub72 _ _ xd xa xb => evenReg xd && evenReg xa && evenReg xb
  | .neg72 _ _ xd xa => evenReg xd && evenReg xa
  | .mov72 _ _ xd xa => evenReg xd && evenReg xa
  | .mulw _ _ xd _ _ => evenReg xd
  | .mulwu _ _ xd _ _ => evenReg xd
  | .sext _ _ xd _ => evenReg xd
  | .zext _ _ xd _ => evenReg xd
  | .min72 _ _ xd xa xb => evenReg xd && evenReg xa && evenReg xb
  | .max72 _ _ xd xa xb => evenReg xd && evenReg xa && evenReg xb
  | .cmp72 _ _ xa xb => evenReg xa && evenReg xb
  | .lsl72 _ _ xd xa _ => evenReg xd && evenReg xa
  | .lsr72 _ _ xd xa _ => evenReg xd && evenReg xa
  | .asr72 _ _ xd xa _ => evenReg xd && evenReg xa
  | .rol72 _ _ xd xa _ => evenReg xd && evenReg xa
  | .ror72 _ _ xd xa _ => evenReg xd && evenReg xa
  | .ldd _ _ xd _ _ => evenReg xd
  | .std _ _ xd _ _ => evenReg xd
  | .ton _ _ _ xp _ => evenReg xp
  | .tof _ _ _ xp _ => evenReg xp
  | .tp _ _ _ xp _ => evenReg xp
  | .ctu _ _ _ xp _ => evenReg xp
  | .ctd _ _ _ xp _ => evenReg xp
  | .acc _ _ _ xp _ => evenReg xp
  | .load _ _ _ xp _ => evenReg xp
  | .gett _ _ xd => evenReg xd
  | .lctlRead _ _ dirWrite _ index => !(dirWrite && (index == 0x100#12 || index == 0x101#12))
  | .illegalOp _ word => laneWordIllegal word
  | .hfIllegal word => hfWordIllegal word
  | .powerOn .. | .brownOut .. | .externalReset .. | .pllLossOfLock .. | .sysRstWarm .. | .sysRstCold .. | .resetRollback
  | .resetRelease | .startWatchdogExpiry | .judgingWindow .. | .judgingTimeout | .forcedSwitch | .pllLock | .rampStep ..
  | .referenceWatchWindow .. | .clkDivSet .. | .gateClose .. | .gateOpen .. | .seamStuckTimeout .. | .pulseSeamEvent ..
  | .seamPstatClear .. | .portWrite .. | .tick | .cycleStart .. | .snapshotInstant .. | .overrun .. | .commit ..
  | .laneBDelivery | .laneBCommit .. | .preEmption .. | .contextRestore .. | .ingressApplication .. | .freshnessExpiry ..
  | .editApplication | .replayInstance .. | .forwardPassResume .. | .provisionalExceptionTaken .. | .fullReexecution ..
  | .journalRecordRetire .. | .assayVerdict .. | .catchupLimitExpiry | .assayRollback | .tramElement | .trmGo ..
  | .trmResume .. | .trmAbort .. | .wdtKeyLand .. | .watchdogExpiry | .watchdogClockStop .. | .watchdogPrewarning
  | .heartbeatTimer | .heartbeatMissed | .helloTimer | .pairWaitExpiry | .tchiasFrameSend | .hello .. | .heartbeat ..
  | .resyncFrameSend | .lag .. | .confirm .. | .abort .. | .fault .. | .resetReq .. | .swapReq .. | .claimTake
  | .swapTimer | .swapRetryTimer | .handSend | .confirmTimeout | .pairCmdSwap .. | .pairCmdPartnerReset ..
  | .claimWireFrameSend | .claimWireFrame .. | .claimWireLoss | .claimWireLongLoss | .claimWireLongValid
  | .d2dHeartbeatTimer | .d2dFrameSend | .fieldCommandFrame .. | .fieldHeartbeatFrame .. | .fieldResetFrame ..
  | .fieldLoadFrame .. | .statusFrameSend | .statusFrame .. | .fieldStatusTimeout | .logicSilenceExpiry | .vfieldSample ..
  | .readbackMismatch .. | .testPulseSlot .. | .testPulseEnd .. | .pullTestStart .. | .pullTestEnd ..
  | .thermalShutdown .. | .thermalRestart .. | .overload .. | .openOn .. | .fldRelease .. | .fldLatchRelease ..
  | .arbitrationStart .. | .canFrameSent .. | .canError .. | .protocolException .. | .busIntegrationEnd ..
  | .busOffRecovery .. | .lifetimeExpiry .. | .ardDwellExpiry .. | .mbTxset .. | .mbTxabort .. | .mbRxfPop ..
  | .goActive .. | .mbRelease .. | .mbTimingWrite .. | .mbErrcodeRead .. | .mbTimeLoRead .. | .ingressSetTimeout ..
  | .egressMailboxLoad .. | .hostReadStatus | .hostBell .. | .hostFin .. | .identify .. | .status .. | .eventsRead ..
  | .eventsClear .. | .nonce .. | .valuesRead .. | .valuesEdit .. | .monitorsRead .. | .ageingRead .. | .taskStart ..
  | .taskStop .. | .swap .. | .partnerReset .. | .updateBegin .. | .updateBlock .. | .updateVerify .. | .updateActivate ..
  | .attest .. | .calendarSet .. | .calendarRead .. | .interruptEntry | .hfSvcPop .. | .hfLock .. | .hfWinCtlWrite ..
  | .svcEvent | .svcCalread | .svcStore | .svcIntegrator | .canaryMeasurement .. | .ringOscillatorMeasurement ..
  | .ledgerAccumulate .. | .ldoStep .. | .dividerStep .. | .monitorSample .. | .hltSel .. | .hltClr .. | .hltXwidthHi ..
  | .laneRailFault .. | .pilPage .. | .pilGdata .. | .pilCommit .. | .pilCmdStore .. | .retainCopy | .pillarStoreEnd ..
  | .powerFailWarning | .powerFailWarningClear | .calendarTick | .bkpSetMs .. | .bkpAlmMs .. | .bkpPwronRel ..
  | .pwronTimeout | .bkpCalFracRead .. | .backupSupplySwitch | .backupSupplyReturn | .validityLatchSet | .lastTimeCommit
  | .eventRecordWrite | .rateWindowClose .. | .evtPost .. | .evtRsel .. | .tapReset | .extest | .idcode
  | .samplePreload .. | .clamp | .highz | .fieldtest | .fieldLoopbackUpdate .. | .dbgauth | .debugChallenge
  | .debugCheckComplete | .halt .. | .step .. | .resume .. | .readReg .. | .writeReg .. | .readMem .. | .writeMem ..
  | .keygen | .nop .. | .push .. | .pop .. | .andp .. | .orp .. | .xorp .. | .setl .. | .clrl .. | .notl .. | .add ..
  | .adc .. | .sub .. | .sbc .. | .alu36And .. | .alu36Or .. | .alu36Xor .. | .alu36Andn .. | .mov .. | .not .. | .neg ..
  | .abs .. | .mul .. | .mulh .. | .mulhu .. | .div .. | .divu .. | .rem .. | .remu .. | .min .. | .max .. | .minu ..
  | .maxu .. | .sel .. | .addi .. | .andi .. | .ori .. | .xori .. | .movi .. | .movh .. | .cmp .. | .cmn .. | .tst ..
  | .cmpi .. | .lsl .. | .lsr .. | .asr .. | .rol .. | .ror .. | .ldw .. | .stw .. | .bmov .. | .bfill .. | .b ..
  | .call .. | .jr .. | .callr .. | .ret .. | .tstart .. | .twait .. | .tallyCheckIn .. | .tallyToken .. | .warnClr ..
  | .hfFlag .. | .feat .. | .svc .. | .egi .. | .fence .. | .hfAdd .. | .hfAdc .. | .hfSub .. | .hfSbc .. | .hfAnd ..
  | .hfOr .. | .hfXor .. | .hfAndn .. | .hfMov .. | .hfNot .. | .hfNeg .. | .hfLsl .. | .hfLsr .. | .hfAsr .. | .hfRol ..
  | .hfRor .. | .hfMul .. | .hfMulhu .. | .hfDivu .. | .hfRemu .. | .hfAddi .. | .hfAndi .. | .hfOri .. | .hfXori ..
  | .hfCmpi .. | .hfMovi .. | .hfCmp .. | .hfCmn .. | .hfTst .. | .hfLd .. | .hfSt .. | .hfLdi .. | .hfIn .. | .hfOut ..
  | .hfB .. | .hfCall .. | .hfJr .. | .hfCallr .. | .hfRet .. | .hfReti .. | .hfEi .. | .hfDi .. | .hfWait .. | .hfSwi ..
  | .vholdBelowStoreMinimum | .flashPortDone .. | .dirTmoExpiry | .cryptoEngineDone | .d2dFrameDiscard ..
  | .tchiasFrameDiscard .. | .obtGapExpiry .. => true

end Sys2Proof
end

