-- ==== Sys2Proof/Certificates/Slice0/Obligations.lean ====
section
/-! DEFINITION. The statements about the block. Each docstring names the rules of spec/ that the statement formalises. -/

open Sys2Proof Sys2Proof.Machine Sys2Proof.Safety

/-! ### Lane arithmetic (R209-R217) -/

/-- R213, R214, R216, R209: addition, subtraction and comparison of words. The result and N, Z, C and V are written, nothing else
changes but what retiring changes. -/
def Obligations.LaneAddSubtract : Prop :=
  ∀ (s : State) (l : LaneId) (c : Cond) (t : Task) (k : LCycle), Runs s l c t k → ∀ (xd xa xb : Reg) (imm : BitVec 18),
    let a := (s.ctx l).x[xa]
    let b := (s.ctx l).x[xb]
    let i := imm.signExtend 36
    let cf := (s.ctx l).c
    let sum := fun (p q : W36) (d : Bool) => withNZCV (p + q + BitVec.ofNat 36 d.toNat)
      (decide (2 ^ 36 ≤ p.toNat + q.toNat + d.toNat)) (!fits 36 (p.toInt + q.toInt + d.toNat))
    let dif := fun (p q : W36) (d : Bool) => withNZCV (p - q - BitVec.ofNat 36 (!d).toNat)
      (decide (q.toNat + (!d).toNat ≤ p.toNat)) (!fits 36 (p.toInt - q.toInt - (!d).toNat))
    exec (.add l c xd xa xb) s = retires l t s (fun x => sum a b false (wr xd (a + b) x)) ∧
    exec (.adc l c xd xa xb) s = retires l t s (fun x => sum a b cf (wr xd (a + b + BitVec.ofNat 36 cf.toNat) x)) ∧
    exec (.sub l c xd xa xb) s = retires l t s (fun x => dif a b true (wr xd (a - b) x)) ∧
    exec (.sbc l c xd xa xb) s = retires l t s (fun x => dif a b cf (wr xd (a - b - BitVec.ofNat 36 (!cf).toNat) x)) ∧
    exec (.neg l c xd xa) s = retires l t s (fun x => dif 0 a true (wr xd (-a) x)) ∧
    exec (.addi l c xd xa imm) s = retires l t s (fun x => sum a i false (wr xd (a + i) x)) ∧
    exec (.cmp l c xa xb) s = retires l t s (dif a b true) ∧
    exec (.cmn l c xa xb) s = retires l t s (sum a b false) ∧
    exec (.cmpi l c xa imm) s = retires l t s (dif a i true)

/-- R209, R214, R216: logic of words. The result sets N and Z and leaves C and V; TST writes no register. -/
def Obligations.LaneLogic : Prop :=
  ∀ (s : State) (l : LaneId) (c : Cond) (t : Task) (k : LCycle), Runs s l c t k → ∀ (xd xa xb : Reg) (imm : BitVec 18),
    let a := (s.ctx l).x[xa]
    let b := (s.ctx l).x[xb]
    let i := BitVec.ofNat 36 imm.toNat
    let result := fun (r : W36) (x : Ctx) => withNZ r (wr xd r x)
    exec (.alu36And l c xd xa xb) s = retires l t s (result (a &&& b)) ∧
    exec (.alu36Or l c xd xa xb) s = retires l t s (result (a ||| b)) ∧
    exec (.alu36Xor l c xd xa xb) s = retires l t s (result (a ^^^ b)) ∧
    exec (.alu36Andn l c xd xa xb) s = retires l t s (result (a &&& ~~~b)) ∧
    exec (.not l c xd xa) s = retires l t s (result (~~~a)) ∧
    exec (.andi l c xd xa imm) s = retires l t s (result (a &&& i)) ∧
    exec (.ori l c xd xa imm) s = retires l t s (result (a ||| i)) ∧
    exec (.xori l c xd xa imm) s = retires l t s (result (a ^^^ i)) ∧
    exec (.tst l c xa xb) s = retires l t s (withNZ (a &&& b))

/-- R195, R209, R214, R215, R221: moves change the destination and no flag; NOP changes nothing; GETT gives Tk. -/
def Obligations.LaneMove : Prop :=
  ∀ (s : State) (l : LaneId) (c : Cond) (t : Task) (k : LCycle), Runs s l c t k → ∀ (xd xa xb pd pa : Reg),
    pd.val % 2 = 0 → pa.val % 2 = 0 → ∀ (i22 : BitVec 22) (i14 : BitVec 14),
    let x0 := s.ctx l
    exec (.nop l c) s = retires l t s id ∧
    exec (.mov l c xd xa) s = retires l t s (wr xd x0.x[xa]) ∧
    exec (.sel l c xd xa xb) s = retires l t s (wr xd (if x0.rlr then x0.x[xa] else x0.x[xb])) ∧
    exec (.movi l c xd i22) s = retires l t s (wr xd (BitVec.ofInt 36 i22.toInt)) ∧
    exec (.movh l c xd i14) s =
      retires l t s (wr xd (BitVec.ofNat 36 (i14.toNat * 2 ^ 22 + x0.x[xd].toNat % 2 ^ 22))) ∧
    exec (.mov72 l c pd pa) s = retires l t s (wrPair pd (pair x0 pa)) ∧
    exec (.sext l c pd xa) s = retires l t s (wrPair pd (BitVec.ofInt 72 x0.x[xa].toInt)) ∧
    exec (.zext l c pd xa) s = retires l t s (wrPair pd (BitVec.ofNat 72 x0.x[xa].toNat)) ∧
    exec (.gett l c pd) s = retires l t s (wrPair pd k.tk)

/-- R214: absolute value, products, minimum and maximum. -/
def Obligations.LaneMultiplyMinMax : Prop :=
  ∀ (s : State) (l : LaneId) (c : Cond) (t : Task) (k : LCycle), Runs s l c t k → ∀ (xd xa xb : Reg),
    let a := (s.ctx l).x[xa]
    let b := (s.ctx l).x[xb]
    let result := fun (r : W36) (x : Ctx) => withNZ r (wr xd r x)
    let resultV := fun (r : W36) (v : Bool) (x : Ctx) => { withNZ r (wr xd r x) with v := v }
    exec (.abs l c xd xa) s = retires l t s (resultV (BitVec.ofNat 36 a.toInt.natAbs) (decide (a.toInt = -2 ^ 35))) ∧
    exec (.mul l c xd xa xb) s = retires l t s (resultV (BitVec.ofInt 36 (a.toInt * b.toInt)) (!fits 36 (a.toInt * b.toInt))) ∧
    exec (.mulh l c xd xa xb) s = retires l t s (result (BitVec.ofInt 36 (a.toInt * b.toInt / 2 ^ 36))) ∧
    exec (.mulhu l c xd xa xb) s = retires l t s (result (BitVec.ofNat 36 (a.toNat * b.toNat / 2 ^ 36))) ∧
    exec (.min l c xd xa xb) s = retires l t s (result (if a.toInt ≤ b.toInt then a else b)) ∧
    exec (.max l c xd xa xb) s = retires l t s (result (if a.toInt ≤ b.toInt then b else a)) ∧
    exec (.minu l c xd xa xb) s = retires l t s (result (if a.toNat ≤ b.toNat then a else b)) ∧
    exec (.maxu l c xd xa xb) s = retires l t s (result (if a.toNat ≤ b.toNat then b else a))

/-- R214: division. A divisor of zero raises DIV_ZERO; DIV of the minimum value by -1 gives that value with V := 1. -/
def Obligations.LaneDivide : Prop :=
  ∀ (s : State) (l : LaneId) (c : Cond) (t : Task) (k : LCycle), Runs s l c t k → ∀ (xd xa xb : Reg),
    let a := (s.ctx l).x[xa]
    let b := (s.ctx l).x[xb]
    let result := fun (r : W36) (x : Ctx) => withNZ r (wr xd r x)
    (b ≠ 0 →
      exec (.div l c xd xa xb) s = retires l t s (fun x =>
        { result (BitVec.ofInt 36 (a.toInt.tdiv b.toInt)) x with v := decide (a.toInt = -2 ^ 35 ∧ b.toInt = -1) }) ∧
      exec (.divu l c xd xa xb) s = retires l t s (result (BitVec.ofNat 36 (a.toNat / b.toNat))) ∧
      exec (.rem l c xd xa xb) s = retires l t s (result (BitVec.ofInt 36 (a.toInt.tmod b.toInt))) ∧
      exec (.remu l c xd xa xb) s = retires l t s (result (BitVec.ofNat 36 (a.toNat % b.toNat)))) ∧
    (b = 0 →
      exec (.div l c xd xa xb) s = .next (raise s l t 0x0B 0 false) ∧
      exec (.divu l c xd xa xb) s = .next (raise s l t 0x0B 0 false) ∧
      exec (.rem l c xd xa xb) s = .next (raise s l t 0x0B 0 false) ∧
      exec (.remu l c xd xa xb) s = .next (raise s l t 0x0B 0 false))

/-- R210, R213, R215, R216: 72-bit arithmetic on pairs, each named by an even register. -/
def Obligations.LanePairArithmetic : Prop :=
  ∀ (s : State) (l : LaneId) (c : Cond) (t : Task) (k : LCycle), Runs s l c t k → ∀ (xd xa xb sa sb : Reg),
    xd.val % 2 = 0 → xa.val % 2 = 0 → xb.val % 2 = 0 →
    let a := pair (s.ctx l) xa
    let b := pair (s.ctx l) xb
    let p := (s.ctx l).x[sa]
    let q := (s.ctx l).x[sb]
    let dif := fun (u v : W72) => withNZCV (u - v) (decide (v.toNat ≤ u.toNat)) (!fits 72 (u.toInt - v.toInt))
    let result := fun (r : W72) (x : Ctx) => withNZ r (wrPair xd r x)
    exec (.add72 l c xd xa xb) s = retires l t s (fun x =>
      withNZCV (a + b) (decide (2 ^ 72 ≤ a.toNat + b.toNat)) (!fits 72 (a.toInt + b.toInt)) (wrPair xd (a + b) x)) ∧
    exec (.sub72 l c xd xa xb) s = retires l t s (fun x => dif a b (wrPair xd (a - b) x)) ∧
    exec (.neg72 l c xd xa) s = retires l t s (fun x => dif 0 a (wrPair xd (-a) x)) ∧
    exec (.cmp72 l c xa xb) s = retires l t s (dif a b) ∧
    exec (.mulw l c xd sa sb) s = retires l t s (result (BitVec.ofInt 72 (p.toInt * q.toInt))) ∧
    exec (.mulwu l c xd sa sb) s = retires l t s (result (BitVec.ofNat 72 (p.toNat * q.toNat))) ∧
    exec (.min72 l c xd xa xb) s = retires l t s (result (if a.toInt ≤ b.toInt then a else b)) ∧
    exec (.max72 l c xd xa xb) s = retires l t s (result (if a.toInt ≤ b.toInt then b else a))

/-- R217: shifts and rotations of a word and of a pair by XB[6:0] or AUX[12:6]. N and Z follow the result. C takes the last bit moved
out, stays for s = 0, and is 0 for a shift by more than the width. V stays.
The model's choices in it: log entry 22. -/
def Obligations.LaneShift : Prop :=
  ∀ (s : State) (l : LaneId) (c : Cond) (t : Task) (k : LCycle), Runs s l c t k → ∀ (xd xa pd pa : Reg) (m : ShAmt),
    pd.val % 2 = 0 → pa.val % 2 = 0 →
    let n := match m with
      | .reg xb => (s.ctx l).x[xb].toNat % 128
      | .imm i => i.toNat
    let a := (s.ctx l).x[xa]
    let b := pair (s.ctx l) pa
    let carry := fun (w : Nat) (out : Bool) (x : Ctx) => { x with c := if n = 0 then x.c else if w < n then false else out }
    let turned := fun (out : Bool) (x : Ctx) => { x with c := if n = 0 then x.c else out }
    let one := fun (r : W36) (x : Ctx) => withNZ r (wr xd r x)
    let two := fun (r : W72) (x : Ctx) => withNZ r (wrPair pd r x)
    exec (.lsl l c xd xa m) s = retires l t s (fun x => carry 36 (a.getLsbD (36 - n)) (one (a <<< n) x)) ∧
    exec (.lsr l c xd xa m) s = retires l t s (fun x => carry 36 (a.getLsbD (n - 1)) (one (a >>> n) x)) ∧
    exec (.asr l c xd xa m) s = retires l t s (fun x => carry 36 (a.getLsbD (n - 1)) (one (a.sshiftRight n) x)) ∧
    exec (.rol l c xd xa m) s = retires l t s (fun x => turned (a.getLsbD ((36 - n % 36) % 36)) (one (a.rotateLeft n) x)) ∧
    exec (.ror l c xd xa m) s = retires l t s (fun x => turned (a.getLsbD ((n + 35) % 36)) (one (a.rotateRight n) x)) ∧
    exec (.lsl72 l c pd pa m) s = retires l t s (fun x => carry 72 (b.getLsbD (72 - n)) (two (b <<< n) x)) ∧
    exec (.lsr72 l c pd pa m) s = retires l t s (fun x => carry 72 (b.getLsbD (n - 1)) (two (b >>> n) x)) ∧
    exec (.asr72 l c pd pa m) s = retires l t s (fun x => carry 72 (b.getLsbD (n - 1)) (two (b.sshiftRight n) x)) ∧
    exec (.rol72 l c pd pa m) s = retires l t s (fun x => turned (b.getLsbD ((72 - n % 72) % 72)) (two (b.rotateLeft n) x)) ∧
    exec (.ror72 l c pd pa m) s = retires l t s (fun x => turned (b.getLsbD ((n + 71) % 72)) (two (b.rotateRight n) x))

/-! ### Lane bits and memory words (R191-R197, R211, R212) -/

/-- R191, R195, R196, R197: the bit instructions that write no memory. One that reads: the access checks pass and the word reads as R158
says; LDP and LDNP push RLR first and raise STACK_OVER when the depth is already 8; TSTB writes Z alone. The bit stack, RLR and single
bits of registers: a full stack raises STACK_OVER, an empty one STACK_UNDER. -/
def Obligations.LaneBits : Prop :=
  (∀ (s s1 : State) (l : LaneId) (c : Cond) (t : Task) (k : LCycle), Runs s l c t k →
     ∀ (seg : Sel) (word : BitVec 17) (bit : BitVec 6) (a : Nat) (d : SegRec) (w : W36), bit.toNat < 36 →
     checkAccess s l (s.ctx l).sel[seg] word.toNat true false false 1 = .ok (a, d) → readAt s l t d a = .ok (w, s1) →
     let b := w.getLsbD bit.toNat
     let x := s1.ctx l
     let gives := fun (r : Bool) => retires l t s1 (fun y => { y with rlr := r })
     exec (.ld l c seg word bit) s = gives b ∧ exec (.ldn l c seg word bit) s = gives (!b) ∧
     exec (.and l c seg word bit) s = gives (x.rlr && b) ∧ exec (.andn l c seg word bit) s = gives (x.rlr && !b) ∧
     exec (.or l c seg word bit) s = gives (x.rlr || b) ∧ exec (.orn l c seg word bit) s = gives (x.rlr || !b) ∧
     exec (.xor l c seg word bit) s = gives (x.rlr != b) ∧ exec (.xorn l c seg word bit) s = gives (x.rlr == b) ∧
     exec (.tstb l c seg word bit) s = retires l t s1 (fun y => { y with z := !b }) ∧
     (x.stack.length < 8 →
       exec (.ldp l c seg word bit) s = retires l t s1 (fun y => { y with stack := x.rlr :: x.stack, rlr := b }) ∧
       exec (.ldnp l c seg word bit) s = retires l t s1 (fun y => { y with stack := x.rlr :: x.stack, rlr := !b })) ∧
     (8 ≤ x.stack.length →
       exec (.ldp l c seg word bit) s = .next (raise s l t 0x09 0 false) ∧
       exec (.ldnp l c seg word bit) s = .next (raise s l t 0x09 0 false))) ∧
  (∀ (s : State) (l : LaneId) (c : Cond) (t : Task) (k : LCycle), Runs s l c t k → ∀ (r : Reg) (bit : BitVec 6), bit.toNat < 36 →
     let x := s.ctx l
     let gives := fun (b : Bool) => retires l t s (fun y => { y with rlr := b })
     exec (.setl l c) s = gives true ∧ exec (.clrl l c) s = gives false ∧ exec (.notl l c) s = gives (!x.rlr) ∧
     exec (.ldxb l c r bit) s = gives (x.x[r].getLsbD bit.toNat) ∧
     exec (.stxb l c r bit) s = retires l t s (wr r (putBit x.x[r] bit.toNat x.rlr)) ∧
     (x.stack.length < 8 → exec (.push l c) s = retires l t s (fun y => { y with stack := x.rlr :: x.stack })) ∧
     (8 ≤ x.stack.length → exec (.push l c) s = .next (raise s l t 0x09 0 false)) ∧
     (∀ b rest, x.stack = b :: rest →
       let popped := fun (v : Bool) => retires l t s (fun y => { y with stack := rest, rlr := v })
       exec (.pop l c) s = popped b ∧ exec (.andp l c) s = popped (x.rlr && b) ∧ exec (.orp l c) s = popped (x.rlr || b) ∧
       exec (.xorp l c) s = popped (x.rlr != b)) ∧
     (x.stack = [] →
       let under := Host.Outcome.next (raise s l t 0x0A 0 false)
       exec (.pop l c) s = under ∧ exec (.andp l c) s = under ∧ exec (.orp l c) s = under ∧ exec (.xorp l c) s = under))

/-- R192, R195: a bit instruction that writes reads its word, replaces the one bit and writes the whole word back; PED and NED also
leave the edge in RLR. No other bit of the word changes. -/
def Obligations.LaneBitWrite : Prop :=
  (∀ (w : W36) (i j : Nat) (v : Bool), i < 36 → j < 36 → (putBit w i v).getLsbD j = if j = i then v else w.getLsbD j) ∧
  ∀ (s s1 s2 : State) (l : LaneId) (c : Cond) (t : Task) (k : LCycle), Runs s l c t k →
    ∀ (seg : Sel) (word : BitVec 17) (bit : BitVec 6) (a : Nat) (d : SegRec) (w : W36) (v : Bool), bit.toNat < 36 →
    checkAccess s l (s.ctx l).sel[seg] word.toNat true true false 1 = .ok (a, d) → readAt s l t d a = .ok (w, s1) →
    writeAt s1 l t d a (putBit w bit.toNat v) = .ok ((), s2) →
    let b := w.getLsbD bit.toNat
    let x := s1.ctx l
    let same := retires l t s2 (fun _ => x)
    (v = x.rlr → exec (.st l c seg word bit) s = same) ∧
    (v = !x.rlr → exec (.stn l c seg word bit) s = same) ∧
    (v = true → exec (.set l c seg word bit) s = same) ∧
    (v = false → exec (.clr l c seg word bit) s = same) ∧
    (v = x.rlr → exec (.ped l c seg word bit) s = retires l t s2 (fun _ => { x with rlr := x.rlr && !b })) ∧
    (v = x.rlr → exec (.ned l c seg word bit) s = retires l t s2 (fun _ => { x with rlr := !x.rlr && b }))

/-- R182, R210, R211, R212: words and double words. The offset is DISP18, or X[XI] + DISP14 without wrapping. A double word has its low
half at the lower address, both words are checked before either is read or written, and no flag changes. -/
def Obligations.LaneWords : Prop :=
  ∀ (s s1 s2 : State) (l : LaneId) (c : Cond) (t : Task) (k : LCycle), Runs s l c t k →
    ∀ (xd xp : Reg) (seg : Sel) (m : MemOff) (a : Nat) (d : SegRec), xp.val % 2 = 0 →
    let x := s.ctx l
    let off := match m with
      | .disp v => v.toNat
      | .idx xi v => x.x[xi].toNat + v.toNat
    (∀ w, checkAccess s l x.sel[seg] off true false false 1 = .ok (a, d) → readAt s l t d a = .ok (w, s1) →
      exec (.ldw l c xd seg m) s = retires l t s1 (wr xd w)) ∧
    (checkAccess s l x.sel[seg] off false true false 1 = .ok (a, d) → writeAt s l t d a x.x[xd] = .ok ((), s1) →
      exec (.stw l c xd seg m) s = .next (retire l t .seq s1)) ∧
    (∀ lo hi, checkAccess s l x.sel[seg] off true false true 2 = .ok (a, d) → readAt s l t d a = .ok (lo, s1) →
      readAt s1 l t d (a + 1) = .ok (hi, s2) → exec (.ldd l c xp seg m) s = retires l t s2 (wrPair xp (hi ++ lo))) ∧
    (checkAccess s l x.sel[seg] off false true true 2 = .ok (a, d) →
      writeWords s l t d a [x.x[xp], x.x[xp + 1]] = .ok ((), s2) → exec (.std l c xp seg m) s = .next (retire l t .seq s2))

/-- R191, R211, R239, R247: what an access check answers, in the order of its checks: SEG_NONE, SEG_LIMIT, SEG_RIGHT, ALIGN and
MEM_UNCORR, else the physical address BASE + offset. -/
def Obligations.LaneAccessChecks : Prop :=
  ∀ (s : State) (l : LaneId) (sel : BitVec 9) (off span : Nat) (rd wr align : Bool),
    (descOf s l sel = none → checkAccess s l sel off rd wr align span = .error (.exc 0x04 0 false)) ∧
    ∀ i d, descOf s l sel = some (i, d) → i ∉ (s.lane l).descPar →
      let a := d.base + off
      let odd := align = true ∧ a < 0x200000 ∧ a % 2 = 1
      let bad := ∃ j, j < span ∧ (s.lane l).wordBad (a + j) = true
      (d.limit < off + span → checkAccess s l sel off rd wr align span = .error (.exc 0x05 0 false)) ∧
      (off + span ≤ d.limit → d.allows rd wr = false → checkAccess s l sel off rd wr align span = .error (.exc 0x06 0 false)) ∧
      (off + span ≤ d.limit → d.allows rd wr = true → odd →
        checkAccess s l sel off rd wr align span = .error (.exc 0x07 0 false)) ∧
      (off + span ≤ d.limit → d.allows rd wr = true → ¬odd → bad →
        checkAccess s l sel off rd wr align span = .error (.exc 0x08 0 false)) ∧
      (off + span ≤ d.limit → d.allows rd wr = true → ¬odd → ¬bad → checkAccess s l sel off rd wr align span = .ok (a, d))

/-- R155, R158, R159: a read of a lane's running cycle changes no memory and no register; a tracked word reads as R158 says. A write
of a forward pass with room in the journal changes the words written and no register; the other lane stays. Where the journal has no
room for every word of an instruction and nothing makes room, none of them is written.
The model's choices in it: log entry 14. -/
def Obligations.LaneReadWriteFrame : Prop :=
  ∀ (s s1 : State) (l : LaneId) (t : Task) (d : SegRec) (a : Nat) (c : LCycle), s.cycle l t = some c →
    (∀ w, readAt s l t d a = .ok (w, s1) →
      (s1.lane l).mem = (s.lane l).mem ∧ (s1.lane l).journal = (s.lane l).journal ∧ s1.ctx l = s.ctx l ∧
      s1.lane l.other = s.lane l.other ∧ (d.tracked = true → w = (trackedValue (s.lane l) t c a).1)) ∧
    (∀ w, writeAt s l t d a w = .ok ((), s1) → Memory.wf (s.lane l).mem = true → c.pass ≠ .replay →
      (s.lane l).journal.length < journalSize →
      (∀ b, b ≠ a → memGet (s1.lane l).mem b = memGet (s.lane l).mem b) ∧ s1.ctx l = s.ctx l ∧
      s1.lane l.other = s.lane l.other ∧
      (d.tracked = true → (s1.lane l).store = (s.lane l).store.write t c.number c.cur a w (laneStamp s l))) ∧
    (∀ ws, writeWords s l t d a ws = .ok ((), s1) → Memory.wf (s.lane l).mem = true → c.pass ≠ .replay →
      (s.lane l).journal.length + ws.length ≤ journalSize →
      (∀ b, (b < a ∨ a + ws.length ≤ b) → memGet (s1.lane l).mem b = memGet (s.lane l).mem b) ∧ s1.ctx l = s.ctx l ∧
      s1.lane l.other = s.lane l.other)

/-! ### Lane block instructions, timers, counters and transfers (R218-R229) -/

/-- R218, R219: one element of a block move or fill: the source is checked before the destination, the word is moved, X2 counts down
and X0, X1 move on; the instruction stays until X2 is 0. With X2 = 0 at issue nothing changes. -/
def Obligations.LaneBlockMove : Prop :=
  ∀ (s s1 s2 : State) (l : LaneId) (c : Cond) (t : Task) (k : LCycle), Runs s l c t k →
    ∀ (segd segs : Sel) (dir : Bool) (a b : Nat) (d g : SegRec) (v : W36),
    let x := s.ctx l
    let move := fun (r : W36) => if dir then r - 1 else r + 1
    let flow := if x.x[2] = 1 then Flow.seq else Flow.stay
    (x.x[2] = 0 → exec (.bmov l c segd segs dir) s = .next (retire l t .seq s) ∧
      exec (.bfill l c segd dir) s = .next (retire l t .seq s)) ∧
    (x.x[2] ≠ 0 → checkAccess s l x.sel[segs] x.x[1].toNat true false false 1 = .ok (a, d) →
      checkAccess s l x.sel[segd] x.x[0].toNat false true false 1 = .ok (b, g) → readAt s l t d a = .ok (v, s1) →
      writeAt s1 l t g b v = .ok ((), s2) →
      exec (.bmov l c segd segs dir) s = .next (retire l t flow (s2.modCtx l (fun y =>
        wr 2 (x.x[2] - 1) (wr 1 (move x.x[1]) (wr 0 (move x.x[0]) y)))))) ∧
    (x.x[2] ≠ 0 → checkAccess s l x.sel[segd] x.x[0].toNat false true false 1 = .ok (b, g) →
      writeAt s l t g b x.x[1] = .ok ((), s2) →
      exec (.bfill l c segd dir) s = .next (retire l t flow (s2.modCtx l (fun y => wr 2 (x.x[2] - 1) (wr 0 (move x.x[0]) y)))))

/-- R222, R223, R224: an execution of a timer: the record is checked, its four words are read, words +0 to +2 are written and pair
XP takes ET and RLR takes Q; and what the three modes do to the record, in the words of R223. -/
def Obligations.LaneTimers : Prop :=
  (∀ (s s1 s2 : State) (l : LaneId) (c : Cond) (t : Task) (k : LCycle), Runs s l c t k →
    ∀ (seg : Sel) (xp : Reg) (word : BitVec 17) (a : Nat) (d : SegRec) (w0 w1 w2 : W36) (r : Timer × W72), xp.val % 2 = 0 →
    checkRecord s l seg word.toNat = .ok (a, d) → readWords s l t d a 4 = .ok ([w0, w1, w2, 0], s1) → w2.toNat < 16 →
    let x := s1.ctx l
    let now := k.tk
    let rec0 : Timer := ⟨w1 ++ w0, w2.getLsbD 0, w2.getLsbD 1, w2.getLsbD 2, w2.getLsbD 3⟩
    let fixed : Timer := if rec0.run = true ∧ now.toNat < rec0.start.toNat then { rec0 with start := now } else rec0
    let new : Timer := { r.1 with prev := x.rlr }
    writeWords s1 l t d a [new.start.extractLsb' 0 36, new.start.extractLsb' 36 36, new.word] = .ok ((), s2) →
    let done := retires l t s2 (fun y => { wrPair xp r.2 y with rlr := r.1.q })
    (r = tonStep fixed x.rlr now (pair x xp) → exec (.ton l c seg xp word) s = done) ∧
    (r = tofStep fixed x.rlr now (pair x xp) → exec (.tof l c seg xp word) s = done) ∧
    (r = tpStep fixed x.rlr now (pair x xp) → exec (.tp l c seg xp word) s = done)) ∧
  (∀ (t : Timer) (now pt : W72), t.start.toNat ≤ now.toNat →
    let passed := fun (from_ : W72) => min (now.toNat - from_.toNat) pt.toNat
    (tonStep t false now pt = ({ t with run := false, q := false }, 0)) ∧
    (t.q = true → tonStep t true now pt = (t, pt)) ∧
    (t.q = false → t.run = false → tonStep t true now pt =
      (if pt = 0 then { t with start := now, q := true, run := false } else { t with start := now, run := true }, 0)) ∧
    (t.q = false → t.run = true → (tonStep t true now pt).2.toNat = passed t.start ∧
      (tonStep t true now pt).1 = if passed t.start = pt.toNat then { t with q := true, run := false } else t) ∧
    (tofStep t true now pt = ({ t with run := false, done := false, q := true }, 0)) ∧
    (t.q = true → t.run = true → (tofStep t false now pt).2.toNat = passed t.start ∧
      (tofStep t false now pt).1 = if passed t.start = pt.toNat then { t with q := false, run := false, done := true } else t) ∧
    (t.q = false → tofStep t false now pt = (t, if t.done then pt else 0)) ∧
    (t.run = true → (tpStep t true now pt).2.toNat = passed t.start ∧
      (tpStep t true now pt).1 = if passed t.start = pt.toNat then { t with q := false, run := false, done := true }
        else { t with q := true }) ∧
    (t.q = true → t.run = false → tofStep t false now pt =
      (if pt = 0 then { t with start := now, q := false, done := true } else { t with start := now, run := true }, 0)) ∧
    (t.run = false → t.prev = false → tpStep t true now pt =
      (if pt = 0 then { t with start := now, done := true, q := false } else { t with start := now, run := true, done := false, q := true },
        0)) ∧
    (t.run = false → t.prev = true → tpStep t true now pt = ({ t with q := false }, if t.done then pt else 0)) ∧
    (t.run = false → tpStep t false now pt = ({ t with done := false, q := false }, 0)))

/-- R225, R226, R227: an execution of CNT72: the record is checked and read, the count is limited to the signed 72-bit range, words +0
to +2 are written, pair XP takes CV, N and Z follow CV, V is sat_hit, and C stays. -/
def Obligations.LaneCounters : Prop :=
  ∀ (s s0 s1 s2 : State) (l : LaneId) (c : Cond) (t : Task) (k : LCycle), Runs s l c t k →
    ∀ (seg : Sel) (xp : Reg) (word : BitVec 17) (a : Nat) (d : SegRec) (w0 w1 w2 : W36) (sum : Int) (r : Bool), xp.val % 2 = 0 →
    checkRecord s l seg word.toNat = .ok (a, d) → readWords s l t d a 3 = .ok ([w0, w1, w2], s0) →
    peekWord s0 l t k d (a + 3) = .ok (0, s1) → w2.toNat < 2 →
    let x := s1.ctx l
    let old : W72 := w1 ++ w0
    let op := pair x xp
    let limit := fun (i : Int) => max (-2 ^ 71) (min (2 ^ 71 - 1) i)
    let cv := BitVec.ofInt 72 (limit sum)
    let edge := x.rlr = true ∧ w2.getLsbD 0 = false
    writeWords s1 l t d a [cv.extractLsb' 0 36, cv.extractLsb' 36 36, if x.rlr then 1 else 0] = .ok ((), s2) →
    let done := retires l t s2 (fun y => { withNZ cv (wrPair xp cv y) with v := !fits 72 sum, rlr := r })
    (sum = (if edge then old.toInt + 1 else old.toInt) → r = decide (op.toInt ≤ limit sum) → exec (.ctu l c seg xp word) s = done) ∧
    (sum = (if edge then old.toInt - 1 else old.toInt) → r = decide (limit sum ≤ 0) → exec (.ctd l c seg xp word) s = done) ∧
    (sum = (if x.rlr then old.toInt + op.toInt else old.toInt) → r = !fits 72 sum → exec (.acc l c seg xp word) s = done) ∧
    (sum = (if x.rlr then op.toInt else old.toInt) → r = false → exec (.load l c seg xp word) s = done)

/-- R152, R168, R228, R229: transfers. A target above LENGTH raises CODE_RANGE, a branch into another block or a call anywhere but at a
block's first instruction raises BLOCK_ENTRY, and a register target with bits [35:20] set raises ILLEGAL_OP. Calls link through X14.
The model's choices in it: log entry 21. -/
def Obligations.LaneTransfers : Prop :=
  ∀ (s : State) (l : LaneId) (c : Cond) (t : Task) (k : LCycle), Runs s l c t k → ∀ (xa : Reg) (target : BitVec 20),
    let x := s.ctx l
    let bs := (s.lane l).blocks
    let len := progLength s l
    let g := target.toNat
    let enters := isBlockStart bs g = true
    let reg := fun (r : Reg) => x.x[r] = BitVec.ofNat 36 g
    let link := s.modCtx l (wr 14 (BitVec.ofNat 36 (x.pc.toNat + 1)))
    let marked := unmarkedFence (s.lane l) k { target := some g } = false
    (marked → g ≤ len → (g < len → blockIdx bs g ≠ blockIdx bs x.pc.toNat → enters) →
      exec (.b l c target) s = .next (retire l t (.branch g) s) ∧
      (reg xa → exec (.jr l c xa) s = .next (retire l t (.branch g) s))) ∧
    (marked → len < g → exec (.b l c target) s = .next (raise s l t 0x03 0 false)) ∧
    (marked → g < len → blockIdx bs g ≠ blockIdx bs x.pc.toNat → ¬enters → exec (.b l c target) s = .next (raise s l t 0x02 0 false)) ∧
    (g ≤ len → (g < len → enters) → exec (.call l c target) s = .next (retire l t (.cross g) link) ∧
      (reg xa → exec (.callr l c xa) s = .next (retire l t (.cross g) link))) ∧
    (len < g → exec (.call l c target) s = .next (raise s l t 0x03 0 false)) ∧
    (g < len → ¬enters → exec (.call l c target) s = .next (raise s l t 0x02 0 false)) ∧
    (g ≤ len → reg 14 → exec (.ret l c) s = .next (retire l t (.cross g) s)) ∧
    (2 ^ 20 ≤ x.x[xa].toNat → exec (.jr l c xa) s = .next (raise s l t 0x01 0 false) ∧
      exec (.callr l c xa) s = .next (raise s l t 0x01 0 false)) ∧
    (2 ^ 20 ≤ x.x[14].toNat → exec (.ret l c) s = .next (raise s l t 0x01 0 false))

/-! ### Conditions, retiring and exceptions of a lane (R150-R153, R187-R190, R229, R238, R239) -/

/-- R122, R123, R186-R190, R207-R210, R274-R276: what stands before an instruction's own effect, whatever the instruction. A word that is no
encoding error is one instruction with its condition, every field of its format at its place, as the words of R207 are. A condition that is
false: it retires and does nothing else. An encoding error, a word that is no instruction among them: ILLEGAL_OP whatever the condition.
A lane that may not retire: nothing.
The model's choices in it: log entries 5, 19, 110, 121. -/
def Obligations.LaneGates : Prop :=
  (∀ (i : Instr) (s : State) (l : LaneId) (c : Cond) (d : Decoded) (t : Task) (k : LCycle), laneForm i = some (l, c, d) →
     Ready s l t k → d.illegal = false → unmarkedFence (s.lane l) k d = false → condHolds c (s.ctx l) k.fc k.fw = false →
     oneSided s l false = none → exec i s = .next (retire l t .seq s)) ∧
  ((∀ (i : Instr) (s : State) (l : LaneId) (c : Cond) (d : Decoded) (t : Task) (k : LCycle), laneForm i = some (l, c, d) →
     Ready s l t k → d.illegal = true → exec i s = .next (raise s l t 0x01 0 false)) ∧
   ∀ (l : LaneId) (word : W36) (s : State) (t : Task) (k : LCycle), laneWordIllegal word = true → Ready s l t k →
     exec (.illegalOp l word) s = .next (raise s l t 0x01 0 false)) ∧
  (∀ (i : Instr) (s : State) (l : LaneId) (c : Cond) (d : Decoded), laneForm i = some (l, c, d) →
     missedCommit s l = none → mayRetire s l = none → exec i s = .next s) ∧
  (∀ (l : LaneId) (w : W36),
     (laneWordIllegal w = true → laneWordRow l w = .illegalOp l w) ∧
     (laneWordIllegal w = false → ∃ c d, condOfCode (w.extractLsb' 32 4).toNat = some c ∧ laneForm (laneWordRow l w) = some (l, c, d) ∧
       d.illegal = false)) ∧
  (∀ (l : LaneId) (cc : BitVec 4) (c : Cond), condOfCode cc.toNat = some c →
     ∀ (d a b : BitVec 4) (seg seg' p : BitVec 3) (word : BitVec 17) (bit : BitVec 6) (i18 : BitVec 18) (i22 : BitVec 22) (i16 : BitVec 16)
       (i14 : BitVec 14) (t : BitVec 20) (blk : BitVec 9) (up : BitVec 1), bit.toNat < 36 →
     laneWordRow l (cc ++ 0x02#6 ++ seg ++ word ++ bit) = .ld l c seg.toFin word bit ∧
     laneWordRow l (cc ++ 0x0A#6 ++ seg ++ word ++ bit) = .st l c seg.toFin word bit ∧
     laneWordRow l (cc ++ 0x0E#6 ++ seg ++ word ++ bit) = .ped l c seg.toFin word bit ∧
     laneWordRow l (cc ++ 0x13#6 ++ 0#16 ++ a ++ bit) = .ldxb l c a.toFin bit ∧
     laneWordRow l (cc ++ 0x12#6 ++ 0#20 ++ 1#6) = .pop l c ∧
     laneWordRow l (cc ++ 0x18#6 ++ d ++ a ++ b ++ 0#8 ++ 0#6) = .add l c d.toFin a.toFin b.toFin ∧
     laneWordRow l (cc ++ 0x18#6 ++ d ++ a ++ b ++ 0#8 ++ 2#6) = .sub l c d.toFin a.toFin b.toFin ∧
     laneWordRow l (cc ++ 0x20#6 ++ 0#4 ++ a ++ b ++ 0#8 ++ 0#6) = .cmp l c a.toFin b.toFin ∧
     laneWordRow l (cc ++ 0x22#6 ++ d ++ a ++ b ++ 0#8 ++ 0#6) = .lsl l c d.toFin a.toFin (.reg b.toFin) ∧
     laneWordRow l (cc ++ 0x19#6 ++ d ++ a ++ i18) = .addi l c d.toFin a.toFin i18 ∧
     laneWordRow l (cc ++ 0x1D#6 ++ d ++ i22) = .movi l c d.toFin i22 ∧
     laneWordRow l (cc ++ 0x1E#6 ++ d ++ 0#8 ++ i14) = .movh l c d.toFin i14 ∧
     laneWordRow l (cc ++ 0x24#6 ++ d ++ seg ++ 0#1 ++ i18) = .ldw l c d.toFin seg.toFin (.disp i18) ∧
     laneWordRow l (cc ++ 0x24#6 ++ d ++ seg ++ 1#1 ++ a ++ i14) = .ldw l c d.toFin seg.toFin (.idx a.toFin i14) ∧
     laneWordRow l (cc ++ 0x27#6 ++ p ++ 0#1 ++ seg ++ 0#1 ++ i18) = .std l c (p ++ 0#1).toFin seg.toFin (.disp i18) ∧
     laneWordRow l (cc ++ 0x28#6 ++ seg ++ seg' ++ up ++ 0#19) = .bmov l c seg.toFin seg'.toFin (up == 1) ∧
     laneWordRow l (cc ++ 0x2A#6 ++ 0#2 ++ seg ++ p ++ 0#1 ++ word) = .ton l c seg.toFin (p ++ 0#1).toFin word ∧
     laneWordRow l (cc ++ 0x2B#6 ++ 3#2 ++ seg ++ p ++ 0#1 ++ word) = .load l c seg.toFin (p ++ 0#1).toFin word ∧
     laneWordRow l (cc ++ 0x2D#6 ++ t ++ 0#6) = .b l c t ∧
     laneWordRow l (cc ++ 0x30#6 ++ d ++ a ++ 0#18) = .tstart l c d.toFin a.toFin ∧
     laneWordRow l (cc ++ 0x35#6 ++ 0#10 ++ i16) = .svc l c i16 ∧
     laneWordRow l (cc ++ 0x36#6 ++ blk ++ 0#17) = .egi l c blk) ∧
  (∀ l : LaneId, laneWordRow l 0x008801003 = .ld l .al 1 0x40 3 ∧
      laneWordRow l 0x010801004 = .and l .al 1 0x40 4 ∧
      laneWordRow l 0x014801040 = .andn l .al 1 0x41 0 ∧
      laneWordRow l 0x041800407 = .ldp l .al 3 0x10 7 ∧
      laneWordRow l 0x01880108C = .or l .al 1 0x42 12 ∧
      laneWordRow l 0x048000002 = .andp l .al ∧
      laneWordRow l 0x029000200 = .st l .al 2 0x08 0 ∧
      laneWordRow l 0x03D800440 = .ned l .al 3 0x11 0 ∧
      laneWordRow l 0x131800441 = .set l .rs 3 0x11 1)

/-- R151, R153, R154, R188, R219, R229, R254: retiring. Within a rung block every count of the lane goes up by one, execution goes on at the
next instruction, at the target, or at the same block instruction, and nothing else of the machine changes. Leaving a block, in an
execution with tracking off: at the program length the cycle stands at the program end; else the registers are cleared but for X13 and
X14 and execution goes on at the target.
The model's choices in it: log entries 5, 95. -/
def Obligations.LaneRetires : Prop :=
  (∀ (s : State) (l : LaneId) (t : Task) (k : LCycle), s.cycle l t = some k →
     let pc := (s.ctx l).pc.toNat
     let bump := fun (stays : Bool) (pc' : Nat) => s.modLane l (fun x =>
       ({ x with count := x.count + 1, stall := .none, stepOne := false, recq := x.recq - 4,
                 ctx := { x.ctx with pc := BitVec.ofNat 20 pc' } }).modCycle t
         (fun y => { y with
           elem := if stays then y.elem + 1 else 0
           replayCount := if y.pass = Pass.replay ∨ y.pass = Pass.resumed then y.replayCount + 1 else y.replayCount
           insts := listModify y.insts y.cur (fun n => { n with length := n.length + 1 }) }))
     (WithinBlock s l k (pc + 1) → retire l t .seq s = bump false (pc + 1)) ∧
     (∀ g, WithinBlock s l k g → retire l t (.branch g) s = bump false g) ∧
     (WithinBlock s l k pc → retire l t .stay s = bump true pc)) ∧
  (∀ (s : State) (l : LaneId) (t : Task) (k : LCycle) (g : Nat), s.cycle l t = some k → k.pass = .full → k.replayLimit = 0 →
     isPaired s = false → (s.lane l).readSet = [] → (s.lane l).vein.length ≤ veinSize → g ≤ progLength s l →
     let u := retire l t (.cross g) s
     let x := s.ctx l
     (g = progLength s l → (u.ctx l).atEnd = true ∧ ∃ k', u.cycle l t = some k' ∧ k'.hold = .progEnd) ∧
     (g < progLength s l → (u.ctx l).pc = BitVec.ofNat 20 g ∧ (u.ctx l).stack = [] ∧ (u.ctx l).rlr = false ∧
       (u.ctx l).n = false ∧ (u.ctx l).z = false ∧ (u.ctx l).c = false ∧ (u.ctx l).v = false ∧
       (∀ r : Reg, (u.ctx l).x[r] = if r = 13 then x.x[(13 : Reg)] else if r = 14 then x.x[(14 : Reg)] else 0) ∧
       (u.ctx l).sel = x.sel) ∧
     u.lane l.other = s.lane l.other ∧ (u.lane l).mem = (s.lane l).mem ∧ (u.lane l).count = (s.lane l).count + 1)

/-- R151, R175: whatever retiring does to the lane, the queue of the block, the Headframe, the field die, the buses, the trams and the
pair stay as they were, while no entry of the task that a fallback or the end of a replayed instance reads is uncorrectable. A fallback that is
recorded may open a gate through its notification. -/
def Obligations.LaneRetireFrame : Prop :=
  ∀ (s : State) (l : LaneId) (t : Task) (flow : Flow), (∀ r ∈ (s.lane l).journal, r.ownOpen t = true → r.err = false) →
    (∀ v ∈ (s.lane l).vein ++ (s.lane l).readSet, v.task = t → v.err = false) →
    let u := retire l t flow s
    u.pending = s.pending ∧ u.hf = s.hf ∧ u.tram = s.tram ∧ u.fd = s.fd ∧ u.fld = s.fld ∧ u.mb = s.mb ∧ u.ing = s.ing ∧
    u.msg = s.msg ∧ u.host = s.host ∧ u.pair = s.pair ∧ u.tly = s.tly ∧ u.wdt = s.wdt ∧ u.cht = s.cht ∧ u.sys = s.sys ∧
    u.clk = { s.clk with gate := u.clk.gate } ∧ u.bkp = s.bkp ∧ u.fuses = s.fuses ∧ u.unitFault = s.unitFault ∧
    u.lane l.other = s.lane l.other

/-- R172, R238, R239, R268, R560: an exception that is taken. In split mode the open cycle ends without a commit, the task is faulted and the
fault report names the first fault, but at a part that is FAULTED nothing but events changes; in paired mode Lane A waits until Lane B reaches
the count.
The model's choices in it: log entries 18, 19. -/
def Obligations.LaneException : Prop :=
  ∀ (s : State) (l : LaneId) (t : Task) (k : LCycle) (code elem : Nat), s.cycle l t = some k → k.pass = .full → code < 256 →
    let u := raise s l t code elem false
    (isSplit s = true → taskLane s t = l → s.pair.role = .faulted → u.laneA = s.laneA ∧ u.laneB = s.laneB ∧ u.seq = s.seq ∧
      u.pair = s.pair ∧ u.asy = s.asy) ∧
    (isSplit s = true → taskLane s t = l → s.pair.role ≠ .faulted →
      (u.task t).phase = .faulted ∧ u.cycle l t = none ∧ (u.lane l).cur ≠ some t ∧ u.lane l.other = s.lane l.other ∧
      (s.seq.fltValid = false → u.seq.fltValid = true ∧ u.seq.fltTask = t.val ∧ u.seq.fltCode.toNat = code ∧
        u.seq.fltPc = (s.ctx l).pc.toNat ∧ u.seq.fltElem = elem ∧ u.seq.fltCyc = k.number ∧ u.seq.fltDouble = false ∧
        u.seq.fltOneLane = true ∧ u.seq.fltLane = (l == .b)) ∧
      (s.seq.fltValid = true → u.seq.fltCode = s.seq.fltCode ∧ u.seq.fltPc = s.seq.fltPc)) ∧
    (isPaired s = true → l = .a →
      u = { s with asy := { s.asy with exc := some ⟨t, k.number, s.laneA.count + 1, BitVec.ofNat 8 code, 2,
        (s.ctx l).pc.toNat, elem⟩ } })

/-! ### Lane instructions that act outside the lane (R230-R237) -/

/-- R230-R237, R250, R253, R268: the outside effects of a lane that stands alone, each performed as its instruction retires.
The model's choices in it: log entry 18. -/
def Obligations.LaneOutside : Prop :=
  ∀ (s : State) (l : LaneId) (c : Cond) (t : Task) (k : LCycle), isSplit s = true → s.asy.unpaired = false →
    (RunsFence s l c t k true → ∀ (xd xa : Reg) (code : W16) (b : BitVec 9),
      let x := s.ctx l
      let v := x.x[xa].toNat
      (∀ ws s1, v < 2 ^ 21 → k.tramBusy = false → readDescriptor s l t (Fin.ofNat 8 (v / 2 ^ 18)) (v % 2 ^ 18) 4 = .ok (ws, s1) →
        (taskDescriptor ws).valid = true → ∃ u, exec (.tstart l c t xa) s = .next (retire l t .seq u) ∧
          u.tram.ch[t].busy = true ∧ u.tram.ch[t].desc = taskDescriptor ws ∧ u.tram.ch[t].k = (taskDescriptor ws).first ∧
          (u.cycle l t).map (·.tramBusy) = (s1.cycle l t).map (fun _ => true)) ∧
      (∀ ch, v < 2 ^ 21 → ch ≠ t → ∀ ws s1, readDescriptor s l t (Fin.ofNat 8 (v / 2 ^ 18)) (v % 2 ^ 18) 4 = .ok (ws, s1) →
        exec (.tstart l c ch xa) s = .next (raise s l t 0x0D 0 false)) ∧
      (s.tly.task[t].checkIns = 0 → tallyTokens s t = [] → ∃ u, exec (.tallyCheckIn l c) s = .next (retire l t .seq u) ∧
        u.tly.task[t].checkIns = 1 ∧ u.tly.task[t].tokens = k.tokens ∧ u.laneA = s.laneA ∧ u.laneB = s.laneB) ∧
      exec (.warnClr l c xd) s =
        .next (retire l t .seq (s.modTask t (fun y => { y with ovrWarn := y.ovrWarn && !x.x[xd].getLsbD 0 }))) ∧
      exec (.hfFlag l c xd) s =
        .next (retire l t .seq (notifySeam (s.modTask t (fun y => { y with hfFlag := y.hfFlag ||| BitVec.ofNat 16 x.x[xd].toNat })) 15)) ∧
      (s.hf.svcq.length < 64 → ∃ u, exec (.svc l c code) s = .next (retire l t .seq u) ∧
        u.hf.svcq = s.hf.svcq ++ [⟨code, l == .b, k.reopened, k.svcOrd, t, k.number, [x.x[0], x.x[1], x.x[2], x.x[3]]⟩] ∧
        (u.cycle l t).map (·.svcOrd) = (s.cycle l t).map (fun y => (y.svcOrd + 1) % 1024)) ∧
      (∀ r, egressRec s (Fin.ofNat 512 b.toNat) = some r → r.task = t →
        (∃ i, i < r.words ∧ walkFails (s.lane l) t k (imageBase + r.image + i) = true) →
        exec (.egi l c b) s = .next (raise s l t 0x08 0 false)) ∧
      (∀ r, egressRec s (Fin.ofNat 512 b.toNat) = some r → r.task = t →
        (∀ i, i < r.words → walkFails (s.lane l) t k (imageBase + r.image + i) = false) →
        let ws := egiWords s l t k r
        exec (.egi l c b) s = .next (retire l t .seq (releaseBlock
          (s.modLane l (fun y => foldEgress y t true [(Fin.ofNat 512 b.toNat, ws)])) (Fin.ofNat 512 b.toNat) ws))) ∧
      (∀ r, egressRec s (Fin.ofNat 512 b.toNat) = some r → r.task ≠ t → exec (.egi l c b) s = .next (raise s l t 0x10 0 false))) ∧
    (RunsFence s l c t k false → ∀ (xd : Reg) (ch : TramCh),
      exec (.fence l c) s = .next (retire l t .seq s) ∧
      (k.tramBusy = false → ∃ u, exec (.twait l c t xd) s = .next (retire l t .seq u) ∧
        u.ctx l = wr xd (BitVec.ofNat 36 (s.tram.ch[t].code.toNat + 2 ^ 8 * bit s.tram.ch[t].fault + 2 ^ 9 * s.tram.ch[t].k)) (s.ctx l) ∧
        (u.lane l).mem = (s.lane l).mem) ∧
      (k.tramBusy = true → exec (.twait l c t xd) s = .next (s.modLane l (fun x => { x with stall := .twait }))) ∧
      (ch ≠ t → exec (.twait l c ch xd) s = .next (raise s l t 0x0D 0 false)))

/-- R170, R204, R205, R232, R233, R234: a checkpoint token, an LCTL read and FEAT make no fence. An LCTL word that cannot be read raises
LCTL_INDEX. -/
def Obligations.LaneControlReads : Prop :=
  ∀ (s : State) (l : LaneId) (c : Cond) (t : Task) (k : LCycle), Runs s l c t k → ∀ (xd : Reg) (n : BitVec 2) (token : W16),
    let read := fun (i : BitVec 12) (w : W36) => exec (.lctlRead l c false xd i) s = retires l t s (wr xd w)
    read 0x000 (BitVec.ofNat 36 t.val) ∧ read 0x001 (BitVec.ofNat 36 k.number.toNat) ∧
    read 0x002 (BitVec.ofNat 36 ((if k.fc then 1 else 0) + (if k.fw then 2 else 0))) ∧ read 0x003 k.ovr ∧ read 0x004 k.fallback ∧
    (∀ r, taskRec s t = some r → read 0x008 (BitVec.ofNat 36 r.budget) ∧ read 0x009 (BitVec.ofNat 36 r.delta) ∧
      read 0x00A (BitVec.ofNat 36 r.floor)) ∧
    (∀ i : BitVec 12, i.toNat ∉ [0, 1, 2, 3, 4, 8, 9, 10] →
      exec (.lctlRead l c false xd i) s = .next (raise s l t 0x0F 0 false)) ∧
    exec (.feat l c xd n) s = retires l t s (wr xd (featWord s l n)) ∧
    exec (.tallyToken l c token) s = .next (retire l t .seq (s.modCycle l t (fun y => { y with
      insts := listModify y.insts y.cur (fun i => { i with tokens := i.tokens ++ [token] }) })))

/-- R230: in paired mode the outside effect waits. Lane A only hands it over at its count; Lane B at the same count with the same
operands performs it; with other operands Lane B retires it too, the lanes mismatch and it is not performed.
The model's choices in it: log entries 18, 19. -/
def Obligations.LanePairedEffect : Prop :=
  ∀ (s : State) (c : Cond) (t : Task) (k : LCycle) (xd : Reg), isPaired s = true →
    (RunsFence s .a c t k true → exec (.hfFlag .a c xd) s = .next (retire .a t .seq { s with asy := { s.asy with
      effects := s.asy.effects ++ [⟨t, k.number, s.laneA.count + 1, .hfFlag (s.ctx .a).x[xd]⟩] } })) ∧
    (RunsFence s .b c t k true → ∀ e rest, s.asy.effects = e :: rest →
      (e.count = s.laneB.count + 1 → e.task = t → e.eff = .hfFlag (s.ctx .b).x[xd] →
        exec (.hfFlag .b c xd) s = .next (retire .b t .seq (notifySeam (({ s with asy := { s.asy with effects := rest } }).modTask t
          (fun y => { y with hfFlag := y.hfFlag ||| BitVec.ofNat 16 (s.ctx .b).x[xd].toNat })) 15))) ∧
      (e.eff ≠ .hfFlag (s.ctx .b).x[xd] →
        exec (.hfFlag .b c xd) s = .next (laneMismatch (retire .b t .seq s) 5 t k.number (s.laneB.count + 1))))

/-! ### The Headframe (R356-R371) -/

/-- R358, R359, R361, R362: addition, subtraction and comparison of the Headframe, on 16 bits with NZCV as R213 gives it. -/
def Obligations.HeadframeArithmetic : Prop :=
  ∀ (s : State) (c : HCond), HfRuns s c → ∀ (wd wa wb : Reg) (imm : BitVec 14),
    let a := s.hf.w[wa]
    let b := s.hf.w[wb]
    let i := imm.signExtend 16
    let cf := s.hf.c
    let sum := fun (p q : W16) (d : Bool) => hNZCV (p + q + BitVec.ofNat 16 d.toNat)
      (decide (2 ^ 16 ≤ p.toNat + q.toNat + d.toNat)) (!fits 16 (p.toInt + q.toInt + d.toNat))
    let dif := fun (p q : W16) (d : Bool) => hNZCV (p - q - BitVec.ofNat 16 (!d).toNat)
      (decide (q.toNat + (!d).toNat ≤ p.toNat)) (!fits 16 (p.toInt - q.toInt - (!d).toNat))
    exec (.hfAdd c wd wa wb) s = hfRetires s (fun h => sum a b false (hwr wd (a + b) h)) ∧
    exec (.hfAdc c wd wa wb) s = hfRetires s (fun h => sum a b cf (hwr wd (a + b + BitVec.ofNat 16 cf.toNat) h)) ∧
    exec (.hfSub c wd wa wb) s = hfRetires s (fun h => dif a b true (hwr wd (a - b) h)) ∧
    exec (.hfSbc c wd wa wb) s = hfRetires s (fun h => dif a b cf (hwr wd (a - b - BitVec.ofNat 16 (!cf).toNat) h)) ∧
    exec (.hfNeg c wd wa) s = hfRetires s (fun h => dif 0 a true (hwr wd (-a) h)) ∧
    exec (.hfAddi c wd wa imm) s = hfRetires s (fun h => sum a i false (hwr wd (a + i) h)) ∧
    exec (.hfCmp c wa wb) s = hfRetires s (dif a b true) ∧
    exec (.hfCmn c wa wb) s = hfRetires s (sum a b false) ∧
    exec (.hfCmpi c wa imm) s = hfRetires s (dif a i true)

/-- R361, R362: logic, moves and products of the Headframe. Logic and products set N and Z alone, moves no flag. -/
def Obligations.HeadframeLogic : Prop :=
  ∀ (s : State) (c : HCond), HfRuns s c → ∀ (wd wa wb : Reg) (imm : BitVec 14) (k : W16),
    let a := s.hf.w[wa]
    let b := s.hf.w[wb]
    let i := BitVec.ofNat 16 imm.toNat
    let result := fun (r : W16) (h : HfState) => hNZ r (hwr wd r h)
    exec (.hfAnd c wd wa wb) s = hfRetires s (result (a &&& b)) ∧
    exec (.hfOr c wd wa wb) s = hfRetires s (result (a ||| b)) ∧
    exec (.hfXor c wd wa wb) s = hfRetires s (result (a ^^^ b)) ∧
    exec (.hfAndn c wd wa wb) s = hfRetires s (result (a &&& ~~~b)) ∧
    exec (.hfNot c wd wa) s = hfRetires s (result (~~~a)) ∧
    exec (.hfAndi c wd wa imm) s = hfRetires s (result (a &&& i)) ∧
    exec (.hfOri c wd wa imm) s = hfRetires s (result (a ||| i)) ∧
    exec (.hfXori c wd wa imm) s = hfRetires s (result (a ^^^ i)) ∧
    exec (.hfTst c wa wb) s = hfRetires s (hNZ (a &&& b)) ∧
    exec (.hfMov c wd wa) s = hfRetires s (hwr wd a) ∧
    exec (.hfMovi c wd k) s = hfRetires s (hwr wd k) ∧
    exec (.hfMul c wd wa wb) s = hfRetires s (result (BitVec.ofNat 16 (a.toNat * b.toNat))) ∧
    exec (.hfMulhu c wd wa wb) s = hfRetires s (result (BitVec.ofNat 16 (a.toNat * b.toNat / 2 ^ 16)))

/-- R362, R217: shifts by WB[4:0], rotations by WB[3:0], and division. A zero divisor writes 0xFFFF, sets V and raises nothing; a
division leaves C, and V but for that case.
The model's choices in it: log entries 22, 28. -/
def Obligations.HeadframeShiftDivide : Prop :=
  ∀ (s : State) (c : HCond), HfRuns s c → ∀ (wd wa wb : Reg),
    let a := s.hf.w[wa]
    let b := s.hf.w[wb]
    let n := b.toNat % 32
    let m := b.toNat % 16
    let result := fun (r : W16) (h : HfState) => hNZ r (hwr wd r h)
    let carry := fun (out : Bool) (h : HfState) => { h with c := if n = 0 then h.c else if 16 < n then false else out }
    let turned := fun (out : Bool) (h : HfState) => { h with c := if m = 0 then h.c else out }
    let zero := fun (h : HfState) => { result 0xFFFF h with v := true }
    exec (.hfLsl c wd wa wb) s = hfRetires s (fun h => carry (a.getLsbD (16 - n)) (result (a <<< n) h)) ∧
    exec (.hfLsr c wd wa wb) s = hfRetires s (fun h => carry (a.getLsbD (n - 1)) (result (a >>> n) h)) ∧
    exec (.hfAsr c wd wa wb) s = hfRetires s (fun h => carry (a.getLsbD (n - 1)) (result (a.sshiftRight n) h)) ∧
    exec (.hfRol c wd wa wb) s = hfRetires s (fun h => turned (a.getLsbD (16 - m)) (result (a.rotateLeft m) h)) ∧
    exec (.hfRor c wd wa wb) s = hfRetires s (fun h => turned (a.getLsbD (m - 1)) (result (a.rotateRight m) h)) ∧
    (b ≠ 0 → exec (.hfDivu c wd wa wb) s = hfRetires s (result (BitVec.ofNat 16 (a.toNat / b.toNat))) ∧
      exec (.hfRemu c wd wa wb) s = hfRetires s (result (BitVec.ofNat 16 (a.toNat % b.toNat)))) ∧
    (b = 0 → exec (.hfDivu c wd wa wb) s = hfRetires s zero ∧ exec (.hfRemu c wd wa wb) s = hfRetires s zero)

/-- R11, R14, R32, R35, R36, R45, R46, R361, R364, R547: loads, stores, LDI, IN and OUT. Local RAM and message RAM by address; a store changes the
addressed word alone. A permitted port is read or written, an address above the blocks reads 0 and takes no write. What is refused to
the integrator partition raises PERM; of the engine's interface it reads 0.
The model's choices in it: log entries 10, 29, 36, 37, 38, 39, 40. -/
def Obligations.HeadframeMemoryAndPorts : Prop :=
  (∀ (s : State) (c : HCond), HfRuns s c → ∀ (wd wa : Reg) (imm : BitVec 14),
     let a := (s.hf.w[wa] + imm.signExtend 16).toNat
     let i := (s.hf.w[wa].toNat + imm.toNat % 2 ^ 13) % 2 ^ 15
     let bankWord := s.hf.bank.toNat * 16384 + (a - 0xC000)
     let bankOpen := s.hf.p = true → s.hf.perm4.getLsbD s.hf.bank.toNat = true
     (a < 0x8000 → (s.hf.p = true → 0x4000 ≤ a) →
       exec (.hfLd c wd wa imm) s = hfRetires s (hwr wd (memGet s.hf.ram a)) ∧
       exec (.hfSt c wd wa imm) s = hfRetires s (fun h => { h with ram := memSet h.ram a s.hf.w[wd] })) ∧
     (0xC000 ≤ a → bankOpen → exec (.hfLd c wd wa imm) s = hfRetires s (hwr wd (memGet s.msg bankWord))) ∧
     (0xC000 ≤ a → bankOpen → inEditQueue bankWord = false → mailboxWord bankWord = none →
       exec (.hfSt c wd wa imm) s =
         hfRetires { s with msg := memSet s.msg bankWord s.hf.w[wd] } id) ∧
     (0xC000 ≤ a → bankOpen → inEditQueue bankWord = true → exec (.hfSt c wd wa imm) s = hfRetires s id) ∧
     (a < 0x4000 → s.hf.p = true → exec (.hfLd c wd wa imm) s = .next (hfFault (hfNow s) 3 a) ∧
       exec (.hfSt c wd wa imm) s = .next (hfFault (hfNow s) 3 a)) ∧
     ((s.hf.p = true → 0x6000 ≤ i) → exec (.hfLdi c wd wa imm) s = hfRetires s (hwr wd
       (BitVec.ofNat 16 ((memGet s.hf.imem i).toNat / (if imm.getLsbD 13 then 2 ^ 16 else 1))))) ∧
     (i < 0x6000 → s.hf.p = true → exec (.hfLdi c wd wa imm) s = .next (hfFault (hfNow s) 3 i))) ∧
  (∀ (s : State) (c : HCond), HfRuns s c → ∀ (wd wa : Reg) (imm : BitVec 14),
     let a := (s.hf.w[wa] + BitVec.ofNat 16 imm.toNat).toNat
     let r := portRead (openBlockGate (hfNow s) a) a
     ((s.hf.p = true → engineInterface a = false ∧ portPermitted s a false = true) → exec (.hfIn c wd wa imm) s =
       .next (hfGo { r.1 with hf := hwr wd r.2 r.1.hf } (r.1.hf.pc + 1))) ∧
     (s.hf.p = true → engineInterface a = true → exec (.hfIn c wd wa imm) s = hfRetires s (fun h => { hwr wd 0 h with portIn := 0 })) ∧
     ((s.hf.p = true → portPermitted s a true = true) → isExpert a = false → (a = 0x0E00 → s.wdt.stopped = false) →
       exec (.hfOut c wd wa imm) s =
         .next (portEffect a s.hf.w[wd] s.hf.p (openBlockGate (hfGo (hfNow s) (s.hf.pc + 1)) a))) ∧
     (s.hf.p = true → engineInterface a = false → portPermitted s a false = false → exec (.hfIn c wd wa imm) s = .next (hfFault (hfNow s) 3 a)) ∧
     (s.hf.p = true → portPermitted s a true = false → exec (.hfOut c wd wa imm) s = .next (hfFault (hfNow s) 3 a)) ∧
     (0x3400 ≤ a → exec (.hfIn c wd wa imm) s = hfRetires s (fun h => { hwr wd 0 h with portIn := 0 }) ∧
       exec (.hfOut c wd wa imm) s = hfRetires s id))

/-- R358, R361, R364, R367: transfers. CALL and CALLR link through W14; vendor code reaches the partition freely, the partition
reaches vendor code through a call gate by a call alone; a register target with bit 15 raises ILLEGAL; RETI pops a frame.
The model's choices in it: log entries 24, 25, 27. -/
def Obligations.HeadframeTransfers : Prop :=
  ∀ (s : State) (c : HCond), HfRuns s c → ∀ (wa : Reg) (target : BitVec 15),
    let gives := fun (w : Vector W16 16) => Host.Outcome.next { s with hf := { s.hf with
      stepOne := false, w := w, pc := target, p := decide (0x6000 ≤ target.toNat) } }
    let linked := s.hf.w.set 14 (BitVec.ofNat 16 (s.hf.pc + 1).toNat)
    let perm := Host.Outcome.next (hfFault (hfNow s) 3 target.toNat)
    let reg := fun (r : Reg) => s.hf.w[r].toNat = target.toNat
    let free := s.hf.p = true → 0x6000 ≤ target.toNat
    let gate := 0x5F00 ≤ target.toNat ∧ target.toNat < 0x5F40
    (free → exec (.hfB c target) s = gives s.hf.w ∧ (reg wa → exec (.hfJr c wa) s = gives s.hf.w) ∧
      (reg 14 → exec (.hfRet c) s = gives s.hf.w)) ∧
    (free ∨ gate → exec (.hfCall c target) s = gives linked ∧ (reg wa → exec (.hfCallr c wa) s = gives linked)) ∧
    (¬free → exec (.hfB c target) s = perm ∧ (reg wa → exec (.hfJr c wa) s = perm) ∧
      (¬gate → exec (.hfCall c target) s = perm)) ∧
    (s.hf.w[wa].getLsbD 15 = true →
      exec (.hfJr c wa) s = .next (hfFault (hfNow s) 1 s.hf.w[wa].toNat) ∧
      exec (.hfCallr c wa) s = .next (hfFault (hfNow s) 1 s.hf.w[wa].toNat)) ∧
    (∀ f rest, s.hf.frames = f :: rest → (s.hf.p = true → 0x6000 ≤ f.pc.toNat) → exec (.hfReti c) s =
      .next { s with hf := { s.hf with
        stepOne := false, pc := f.pc, n := f.n, z := f.z, c := f.c, v := f.v, p := f.p, ie := f.ie, level := f.level,
        bank := f.bank, frames := rest } })

/-- R188, R359-R362, R364, R366, R368, R572: a Headframe word that is no encoding error is one instruction with its condition, every field of its
format at its place. A Headframe instruction whose condition is false only advances PC, and while the Headframe
waits, is halted or has double faulted no instruction does anything. EI, DI, WAIT and SWI: in the partition EI and DI reach the mask of
vectors 26 to 31 alone.
The model's choices in it: log entries 30, 110. -/
def Obligations.HeadframeSystemForms : Prop :=
  (∀ (i : Instr) (s : State) (c : HCond), hfForm i = some c →
     (hfFetches s = true → hcondHolds s c = false → exec i s = hfRetires s id) ∧
     (s.hf.dead = true ∨ s.hf.waiting = true → exec i s = .next s) ∧
     (s.hf.halted = true → s.hf.stepOne = false → exec i s = .next s)) ∧
  (∀ (s : State) (c : HCond), HfRuns s c → ∀ (n : Fin 6),
     (s.hf.p = false → exec (.hfEi c) s = hfRetires s (fun h => { h with ie := true }) ∧
       exec (.hfDi c) s = hfRetires s (fun h => { h with ie := false })) ∧
     (s.hf.p = true → exec (.hfEi c) s = hfRetires s (fun h => { h with imask := 0 }) ∧
       exec (.hfDi c) s = hfRetires s (fun h => { h with imask := BitVec.allOnes 6 })) ∧
     exec (.hfWait c) s = hfRetires s (fun h => { h with waiting := true }) ∧
     exec (.hfSwi c n) s = hfRetires s (fun h => { h with swi := h.swi ||| (1#6 <<< n.val) })) ∧
  (∀ w : W32, (hfWordIllegal w = true → hfWordRow w = .hfIllegal w) ∧
     (hfWordIllegal w = false → ∃ c, hcondOfCode (w.extractLsb' 28 4).toNat = some c ∧ hfForm (hfWordRow w) = some c)) ∧
  (∀ (cc : BitVec 4) (c : HCond), hcondOfCode cc.toNat = some c → ∀ (d a b : BitVec 4) (i14 : BitVec 14) (i16 : BitVec 16) (t : BitVec 15),
     hfWordRow (cc ++ 0x01#6 ++ d ++ a ++ b ++ 0#10) = .hfAdd c d.toFin a.toFin b.toFin ∧
     hfWordRow (cc ++ 0x01#6 ++ d ++ a ++ b ++ 2#10) = .hfSub c d.toFin a.toFin b.toFin ∧
     hfWordRow (cc ++ 0x02#6 ++ d ++ a ++ i14) = .hfAddi c d.toFin a.toFin i14 ∧
     hfWordRow (cc ++ 0x07#6 ++ d ++ 0#2 ++ i16) = .hfMovi c d.toFin i16 ∧
     hfWordRow (cc ++ 0x10#6 ++ d ++ a ++ i14) = .hfLd c d.toFin a.toFin i14 ∧
     hfWordRow (cc ++ 0x11#6 ++ d ++ a ++ i14) = .hfSt c d.toFin a.toFin i14 ∧
     hfWordRow (cc ++ 0x14#6 ++ d ++ a ++ i14) = .hfOut c d.toFin a.toFin i14 ∧
     hfWordRow (cc ++ 0x18#6 ++ 0#7 ++ t) = .hfB c t)

/-- R366, R367, R368, R369: a fault is precise. It captures HF.FAULT where VALID was 0, pushes the frame, enters its vector with P = 0
at its level, and stops the partition where it stood in it or the fault is PERM. At a level at or below its vector it is a double
fault, which stops fetching. An encoding error raises ILLEGAL. At an instruction boundary the eligible vector of the lowest number is
entered; a software interrupt is pending until it is taken, and WAIT ends.
The model's choices in it: log entries 26, 27, 30, 31, 95, 110, 122. -/
def Obligations.HeadframeEntries : Prop :=
  (∀ (s : State) (vec addr : Nat), 1 ≤ vec → vec ≤ 3 →
     let u := hfFault s vec addr
     (vec < s.hf.level →
       u.hf.pc = BitVec.ofNat 15 (2 * vec) ∧ u.hf.p = false ∧ u.hf.level = vec ∧ u.hf.waiting = false ∧ u.hf.w = s.hf.w ∧
       u.hf.frames = ⟨s.hf.pc, s.hf.n, s.hf.z, s.hf.c, s.hf.v, s.hf.p, s.hf.ie, s.hf.level, s.hf.bank⟩ :: s.hf.frames ∧
       (s.hf.p = true ∨ vec = 3 → u.hf.intStop = true ∧ u.hf.imask = BitVec.allOnes 6) ∧
       (s.hf.p = false → vec ≠ 3 → u.hf.intStop = s.hf.intStop ∧ u.hf.imask = s.hf.imask) ∧
       u.laneA = s.laneA ∧ u.laneB = s.laneB ∧ u.fd = s.fd ∧ u.pair = s.pair) ∧
     (s.hf.level ≤ vec → u.hf.double = true ∧ u.hf.dead = true ∧ u.hf.pc = s.hf.pc ∧ u.pair.role = .faulted) ∧
     (s.hf.faultValid = false → u.hf.faultValid = true ∧ u.hf.faultVec = vec ∧ u.hf.faultPc = s.hf.pc ∧ u.hf.faultPf = s.hf.p ∧
       u.hf.faultAddr = BitVec.ofNat 16 addr) ∧
     (s.hf.faultValid = true → u.hf.faultVec = s.hf.faultVec ∧ u.hf.faultPc = s.hf.faultPc) ∧
     ∀ word, hfWordIllegal word = true → hfFetches s = true → ∃ a n, exec (.hfIllegal word) s =
       .next (hfFault { s with free := n, hf := { s.hf with stepOne := false } } 1 a)) ∧
  (∀ (s : State) (v : Nat), v < 32 → s.hf.dead = false → s.hf.halted = false → s.wdt.held = false → s.clk.lock = true → vectorEligible s v = true →
     (∀ w, w < v → vectorEligible s w = false) →
     exec .interruptEntry s = .next { openGate s 5 with hf := { s.hf with
       frames := ⟨s.hf.pc, s.hf.n, s.hf.z, s.hf.c, s.hf.v, s.hf.p, s.hf.ie, s.hf.level, s.hf.bank⟩ :: s.hf.frames
       pc := BitVec.ofNat 15 (2 * v), p := false, level := v, waiting := false
       swi := if 26 ≤ v then s.hf.swi &&& ~~~(1#6 <<< (v - 26)) else s.hf.swi } })

/-- R43, R365, R370, R371: service calls and the ports of the Headframe that act. Vendor firmware acts on the oldest request, on the
first only for its task, cycle and ordinal; a code of the integrator raises SWI 0, and is dropped once where no partition runs; HF.SVC_POP removes
the oldest request; HF.LOCK locks the map; a write of HF.WIN_CTL clears both window latches.
The model's choices in it: log entries 32, 33, 34, 35. -/
def Obligations.HeadframeService : Prop :=
  ∀ (s : State) (q : SvcReq) (rest : List SvcReq), s.hf.svcq = q :: rest →
    let key := (q.task, q.cycle, q.ord)
    let seen := { s with hf := { s.hf with served := key :: s.hf.served } }
    let x := fun (i : Nat) => (q.x.getD i 0).toNat
    (key ∉ s.hf.served → q.code = 1 → 0x1000 ≤ x 0 % 65536 → exec .svcEvent s =
      .next (postEvent seen (x 0 % 65536) (x 0 / 2 ^ 16 % 8) (0x40 + q.task.val) (leBytes 4 (x 1) ++ leBytes 4 (x 2) ++ leBytes 4 (x 3)))) ∧
    (key ∉ s.hf.served → q.code = 3 → exec .svcStore s = .next (requestStore seen)) ∧
    (key ∉ s.hf.served → q.code = 2 →
      let l : LaneId := if q.laneB then .b else .a
      let word := fun (i : Nat) => Config.calWord (if s.bkp.locked then 0 else calStamp s.bkp.cal) i
      exec .svcCalread s =
        .next (firmwareEdit (firmwareEdit seen l (x 0 % 2 ^ 22) (word 0)).1 l (x 0 % 2 ^ 22 + 1) (word 1)).1) ∧
    (key ∈ s.hf.served → q.code.toNat < 0x8000 → exec .svcEvent s = .next s ∧ exec .svcStore s = .next s ∧ exec .svcCalread s = .next s) ∧
    (0x8000 ≤ q.code.toNat → s.hf.intPart = true → s.hf.intStop = false →
      exec .svcIntegrator s = .next { s with hf := { s.hf with swi := s.hf.swi ||| 1#6 } }) ∧
    (0x8000 ≤ q.code.toNat → s.hf.intPart = false ∨ s.hf.intStop = true →
      (key ∉ s.hf.served → exec .svcIntegrator s = .next (dropRequest seen q)) ∧
      (key ∈ s.hf.served → exec .svcIntegrator s = .next s)) ∧
    exec (.hfSvcPop false) s = .next { s with hf := { s.hf with svcq := rest } } ∧
    exec (.hfLock false) s = .next { s with hf := { s.hf with locked := true } } ∧
    ∀ v, exec (.hfWinCtlWrite v false) s = .next { s with hf := { s.hf with
      winCtl := v &&& 0xC1FF#16, winRead := none, win0 := none, win1 := none } }

/-! ### Resets and starts (R87-R110, R445-R457) -/

/-- R87, R88, R90-R93, R110, R447, R582: a reset from its source to its release. Each source records its cause and class, stops the lanes,
the trams and the tasks, and sends the reset frame to the field die; a filtered pulse does nothing; a loss of lock outside the running
state only clears LOCK; while a reset is under way a source makes the pending start cold, and of sources that assert together the lower
cause is recorded. Reset rollback undoes every open cycle of
both lanes, and release waits for it, for the stores and for the rails. A release without a reason against it chooses a warm start,
which keeps the lanes' memories and the charter; any other chooses a cold start, in which the lanes, the charter and the volatile ports
start anew. The pillar, the fuses, the flash and the queue outlive both.
The model's choices in it: log entries 6, 76, 77, 78, 100. -/
def Obligations.ResetToRelease : Prop :=
  (∀ (s : State), resetUnderWay s = false →
     let entered := fun (out : Out) (cause : Nat) (cold asked : Bool) => ∃ u, out = .next u ∧ u.sys.phase = .entered ∧
       u.sys.state = .starting ∧ u.sys.cause = cause ∧ u.sys.coldClass = cold ∧ u.sys.coldAsked = asked ∧ u.laneA.stopped = true ∧
       u.laneB.stopped = true ∧ u.laneA.mem = s.laneA.mem ∧ u.seq.running = false ∧ (∀ ch : TramCh, u.tram.ch[ch].busy = false) ∧
       u.fld.sent = some (s.fld.txSeq, .reset) ∧ u.flash = s.flash ∧ u.cht = s.cht
     (∀ rail, entered (exec (.powerOn rail) s) 0 true false) ∧
     (∀ rail, entered (exec (.brownOut rail) s) 1 true false ∧ ∃ u, exec (.brownOut rail) s = .next u ∧ u.sys.retOk = false) ∧
     (∀ ns, 1000 ≤ ns → entered (exec (.externalReset ns) s) 2 true false) ∧
     (∀ ns, ns < 200 → exec (.externalReset ns) s = .next s) ∧
     (∀ why, s.sys.state = .running → entered (exec (.pllLossOfLock why) s) 3 true false) ∧
     (∀ why, s.sys.state ≠ .running → ∃ u, exec (.pllLossOfLock why) s = .next u ∧ u.clk.lock = false ∧ u.sys = s.sys ∧ u.laneA = s.laneA) ∧
     entered (exec (.sysRstWarm false) s) 5 false false ∧ entered (exec (.sysRstCold false) s) 5 true true ∧
     (∀ rail, ∀ r : State, resetUnderWay r = true → ∃ u, exec (.powerOn rail) r = .next u ∧ u.sys.phase = r.sys.phase ∧
       u.sys.coldClass = true ∧ (r.sys.together = true → railUp r rail = true → u.sys.cause = 0) ∧
       (r.sys.together = false → u.sys.cause = r.sys.cause ∧ u.sys.coldAsked = r.sys.coldAsked))) ∧
  (∀ (s : State),
     (s.sys.phase = .entered → s.pil.store = .none → s.sys.coldClass = false → rollbackBad s .a = false → rollbackBad s .b = false →
       ∃ u, exec .resetRollback s = .next u ∧ u.sys.phase = .rolledBack ∧ u.sys.rollbackFailed = false ∧
         (∀ t l, u.cycle l t = none) ∧ u.laneA.mem = (undoLane s .a).mem ∧ u.laneB.mem = (undoLane s .b).mem) ∧
     (s.sys.phase ≠ .entered → exec .resetRollback s = .next s) ∧
     (s.sys.phase = .rolledBack ∨ (s.sys.phase = .entered ∧ s.sys.coldClass = true) → s.pil.store = .none → s.sup.core = true →
       s.sup.lin = true → s.sup.hold = true →
       let warm := decide (s.sys.coldAsked = false ∧ 4 ≤ s.sys.cause ∧ retentionWhy s = 0)
       ∃ u, exec .resetRelease s = .next u ∧ u.sys.phase = .released warm ∧ u.sys.warm = warm ∧ u.sys.state = .starting ∧
         u.pil.sram = s.pil.sram ∧ u.fuses = s.fuses ∧ u.pending = s.pending ∧ u.flash = s.flash ∧
         (warm = true → u.cht = s.cht ∧ u.laneA.mem = s.laneA.mem ∧ u.laneB.mem = s.laneB.mem) ∧
         (warm = false → u.cht = State.reset.cht ∧ u.laneA = State.reset.laneA ∧ u.laneB = State.reset.laneB ∧ u.msg = State.reset.msg)) ∧
     (s.sup.core = false ∨ s.sup.lin = false ∨ s.sup.hold = false ∨ s.pil.store ≠ .none → exec .resetRelease s = .next s))

/-- R94, R98, R107, R108, R445, R449, R450, R452, R454, R463, R543, R612: the steps of a start that commands carry. A start with sound fuses enables
every reference source and judges its own; four good windows in a row pass it; 20 ms without a pass end in clock hold on RCREF; the PLL locks, the
seams deliver what they held, the islands ramp, and a start that outlasts its allowance ends in halt.
The model's choices in it: log entries 6, 72, 75. -/
def Obligations.StartSteps : Prop :=
  ∀ (s : State) (env : StartEnv) (step : Nat),
    (env.testEn = false → env.fuseDamaged = false → fusesAgree s.fuses = true → fuseWdtOpen s ≠ 7 → fuseStartRef s < 2 →
      s.sys.phase = .released false → s.sys.warm = false →
      ∃ u, exec (.coldStart env) s = .next u ∧ u.sys.phase = .judging 2 ∧ u.sys.env = some env ∧ u.clk.ref = 2 ∧
        u.clk.newRef = fuseStartRef s ∧ u.clk.judging = true ∧ u.clk.good = 0 ∧ u.clk.sources = 7) ∧
    (env.fuseDamaged = true ∨ fusesAgree s.fuses = false → env.testEn = false → s.sys.phase = .released false → s.sys.warm = false →
      ∃ u, exec (.coldStart env) s = .next u ∧ u.sys.state = .halt ∧ u.sys.step = 1 ∧ u.sys.code = 0x12) ∧
    (∀ c, env.testEn = false → env.fuseDamaged = false → fusesAgree s.fuses = true → fuseWdtOpen s ≠ 7 → fuseStartRef s ≠ 3 →
      s.sys.phase = .released true → s.sys.warm = true → s.cht.charter = some c → c.head.ref < 2 →
      ∃ u, exec (.warmStart env) s = .next u ∧ u.sys.phase = .judging 2 ∧ u.clk.ref = 2 ∧ u.clk.newRef = c.head.ref ∧
        u.clk.sources = 7) ∧
    (∀ count, s.sys.phase = .judging step →
      let w := match s.cht.charter with | some c => c.head.xoscWin | none => 7
      let good := 1024 * (100 - w) ≤ 100 * count ∧ 100 * count ≤ 1024 * (100 + w)
      let seen := fun (n : Nat) => { s with clk := { s.clk with xcount := min 0xFFF count, windows := min 0xFFFF (s.clk.windows + 1), good := n } }
      (¬good → exec (.judgingWindow count) s = .next (seen 0)) ∧
      (good → s.clk.good < 3 → exec (.judgingWindow count) s = .next (seen (s.clk.good + 1))) ∧
      (good → s.clk.good = 3 → step = 2 → ∃ u, exec (.judgingWindow count) s = .next u ∧ u.sys.phase = .locking 2 ∧
        u.clk.lock = false ∧ u.clk.judging = false)) ∧
    (s.sys.phase = .judging step → ∃ u, exec .judgingTimeout s = .next u ∧ u.sys.state = .clockHold ∧ u.sys.phase = .idle ∧
      u.sys.step = step ∧ u.sys.code = 0x21 ∧ u.sys.retOk = false) ∧
    (s.sys.phase = .locking step → s.seam.held = [] → stepDivs s step ≠ s.clk.cur → ∃ u, exec .pllLock s = .next u ∧ u.clk.lock = true ∧
      u.clk.ref = s.clk.newRef ∧ u.sys.phase = .ramping step false ∧ u.clk.target = stepDivs s step) ∧
    (let on := deliverHeld { s with clk := { s.clk with lock := true }, sup := { s.sup with pllLow := false } }
     (s.sys.phase = .locking step → exec .pllLock s = .next (rampDown (on.modClk (fun k => { k with ref := k.newRef })) step)) ∧
     (s.sys.phase = .idle → exec .pllLock s = .next on)) ∧
    (∀ i : Island, s.sys.phase = .idle → s.clk.lock = true → isLaneIsland i = false →
      let cur := s.clk.cur[i]
      let upto := s.clk.target[i]
      exec (.rampStep i) s = .next { s with clk := { s.clk with
        cur := s.clk.cur.set i (if cur < upto then cur + 1 else if upto < cur then cur - 1 else cur) } }) ∧
    (∀ i : Island, s.clk.lock = false → exec (.rampStep i) s = .next s) ∧
    (s.sys.phase = .locking step → ∃ u, exec .forcedSwitch s = .next u ∧ u.clk.forced = true ∧ u.clk.ref = s.clk.ref ∧ u.sys = s.sys) ∧
    (s.sys.startWdt = true → ∃ u, exec .startWatchdogExpiry s = .next u ∧ u.sys.state = .halt ∧ u.sys.code = 0xE1 ∧
      u.sys.startWdt = false ∧ u.pair.take = none) ∧
    (s.sys.startWdt = false → exec .startWatchdogExpiry s = .next s)

/-- R14, R25, R45, R451, R456, R457, R459-R461, R465-R469: dividers, gates, the reference watch, stuck accesses and pulse seams.
A gate closes in two steps, CLOSING and CLOSED. Without its fact nothing enters a pulse seam, and the round trips of the seams from the
clocked islands return within a tick, while the root runs. HOST_READ, HOST_READ_STATUS, HOST_WRITE and HOST_BELL complete as their access
is delivered, HOST_FIN with the mailboxes it names, an unsupported command with its error.
The model's choices in it: log entries 12, 36, 38, 122, 127. -/
def Obligations.ClocksAndSeams : Prop :=
  ∀ (s : State),
    (∀ (i : Island) (v : W16), expertGranted s (0x310 + i.val) = true →
      (divRefused s i (v.toNat % 128) = false → v.toNat % 128 ≤ 64 → ∃ u, exec (.clkDivSet i v false) s = .next u ∧
        u.clk.target[i] = v.toNat % 128 ∧ u.clk.cur = s.clk.cur ∧
        (isLaneIsland i = true → isSplit s = false → u.clk.target[(0 : Island)] = v.toNat % 128 ∧ u.clk.target[(1 : Island)] = v.toNat % 128)) ∧
      (divRefused s i (v.toNat % 128) = true → ∃ u, exec (.clkDivSet i v false) s = .next u ∧ u.clk.divDenied = true ∧
        u.clk.target = s.clk.target)) ∧
    (∀ i : Island, (exec (.gateOpen i) s = .next { s with clk := { s.clk with gate := s.clk.gate.set i .open_ } }) ∧
      (islandHasWork s i = false → seamOpen s i = false → s.clk.gateDis.getLsbD i.val = false →
        let next : Gate := if s.clk.gate[i] = .open_ then .closing else .closed
        exec (.gateClose i) s = .next { s with clk := { s.clk with gate := s.clk.gate.set i next } }) ∧
      (islandHasWork s i = true ∨ seamOpen s i = true ∨ s.clk.gateDis.getLsbD i.val = true → exec (.gateClose i) s = .next s)) ∧
    (∀ n : BitVec 12, s.sys.state = .running → s.clk.ref ≠ 2 →
      (goodWindow s.clk.judgeWin n.toNat = true →
        exec (.referenceWatchWindow n) s = .next { s with clk := { s.clk with xcount := n.toNat, badRun := 0 } }) ∧
      (goodWindow s.clk.judgeWin n.toNat = false → s.clk.badRun < 3 →
        exec (.referenceWatchWindow n) s = .next { s with clk := { s.clk with xcount := n.toNat, badRun := s.clk.badRun + 1 } }) ∧
      (goodWindow s.clk.judgeWin n.toNat = false → 3 ≤ s.clk.badRun → ∃ u, exec (.referenceWatchWindow n) s = .next u ∧
        u.clk.refBad = true ∧ u.clk.badRun = 0)) ∧
    (∀ i : Fin 16, seamFact s i = true →
      let q := s.seam.pulse[i]
      exec (.pulseSeamEvent i 0) s = .next { s with clk := { s.clk with gate := s.clk.gate.set 5 .open_ }, seam := { s.seam with
        ovr := s.seam.ovr || (q.busy && q.pend)
        pulse := s.seam.pulse.set i (if q.busy = false then { q with busy := true } else if q.pend = false then { q with pend := true }
          else { q with ovr := true, lost := min 255 (q.lost + 1) }) } }) ∧
    (∀ (i : Fin 16) (returned : Nat), seamFact s i = false → exec (.pulseSeamEvent i returned) s = .next s) ∧
    (s.clk.lock = true → ∀ i : Fin 16,
      (2 ≤ i.val → (tickSeams s).seam.pulse[i] = { s.seam.pulse[i] with busy := false, pend := false }) ∧
      (i.val < 2 → (tickSeams s).seam.pulse[i] = s.seam.pulse[i])) ∧
    (s.clk.lock = false → tickSeams s = s) ∧
    (∃ u, exec (.seamPstatClear false) s = .next u ∧ (u.seam.pulse[Fin.ofNat 16 s.seam.psel]).ovr = false ∧
      (u.seam.pulse[Fin.ofNat 16 s.seam.psel]).lost = 0) ∧
    (∀ target, exec (.seamStuckTimeout .host target .latchedEarlier) s = .next s ∧
      ∃ u, exec (.seamStuckTimeout .host target .notLatched) s = .next u ∧ u.seam.stuck = true ∧
        u.seam.stuckCnt = min 0xFFFF (s.seam.stuckCnt + 1) ∧ (s.seam.stuck = false → u.seam.stuckTarget = target.toNat)) ∧
    (∀ (a v : W16), isExpert a.toNat = false → exec (.portWrite a v false) s =
      .next (portEffect a.toNat v false (openBlockGate s a.toNat))) ∧
    (∀ (a v : W16), isExpert a.toNat = true → a.toNat / 0x200 ≠ 21 → expertGranted s a.toNat = false →
      ∃ u, exec (.portWrite a v false) s = .next u ∧ u.sys.expertDenied = true ∧ u.clk = { s.clk with gate := u.clk.gate } ∧
        u.wdt = s.wdt) ∧
    (∀ (a v : W16), portPermitted s a.toNat true = false → exec (.portWrite a v true) s = .next (hfFault s 3 a.toNat)) ∧
    (hostServes s = true → s.clk.lock = true → let x := openGate (countHost s) 6
      (∀ a len, exec (.hostRead a len) s = .next (burstRead x a.toNat len)) ∧
        (∀ a bs, exec (.hostWrite a bs) s = .next (burstWrite x a.toNat bs)) ∧ exec .hostReadStatus s = .next (burstStatus x) ∧
        (∀ mask, exec (.hostBell mask) s = .next (bellEffect x mask)) ∧
        ∀ c, c ∉ [0xEE#8, 0x12#8, 0x05#8] → exec (.xspiUnsupportedCommand c) s = .next { s with host := { s.host with errCmd := true } }) ∧
    ∀ mask, exec (.hostFin mask false) s = .next (finEffect mask (openBlockGate s 0x1C02))

/-- R460, R467, R468: an event enters a pulse seam where its fact stands in the source block. With the seam idle, or where its round trip has
returned with nothing pending, a new round trip
starts; during a round trip the pending bit is set, and starts the next one as the current one returns; with the pending bit set OVR is set, LOST
goes up by one and stays at 255, and SEAM.STAT.OVR is set. The request opens the gate of the HEADFRAME island. The other seams stay. -/
def Obligations.PulseSeams : Prop :=
  ∀ (s : State) (i : Fin 16) (returned : Nat) (q : PSeam), s.seam.pulse[i] = q → seamFact s i = true →
    let after := fun (x : PSeam) => exec (.pulseSeamEvent i returned) s = .next { s with
      clk := { s.clk with gate := s.clk.gate.set 5 .open_ }, seam := { s.seam with
      pulse := s.seam.pulse.set i x, ovr := s.seam.ovr || (returned == 0 && q.busy && q.pend) } }
    (q.busy = false → after { q with busy := true }) ∧
    (q.busy = true → q.pend = false → (returned = 0 → after { q with pend := true }) ∧ (0 < returned → after { q with busy := true })) ∧
    (q.busy = true → q.pend = true →
      (returned = 0 → after { q with ovr := true, lost := min 255 (q.lost + 1) }) ∧ (returned = 1 → after { q with pend := true }) ∧
      (1 < returned → after { q with busy := true, pend := false }))

/-! ### The queue and the memories -/

/-- The model's own form of a run, DESIGN CHOICE of log entries 1 and 2: a step takes the command at the front of the queue and is its
execution on the state with the queue's rest; on an empty queue the block idles. Every form completes: whatever constructor of Instr and
whatever operands, exec answers a next state in every state, but for a READ_MEM or WRITE_MEM frame at an address that its target lacks
(log entry 44), which completes where the target holds the address. What that next state holds is said form by form in the other
statements. -/
def Obligations.StepTakesFront : Prop :=
  ∀ (s : State) (i : Instr) (rest : List Instr),
    step { s with pending := i :: rest } = exec i { s with pending := rest } ∧
    step { s with pending := [] } = .next { s with pending := [] } ∧
    ((∀ t a, (i = .readMem t a ∨ ∃ d, i = .writeMem t a d) → targetHolds t a.toNat = true) → ∃ u, exec i s = .next u)

/-- R28, R31, R32, R33, R76, R489: every step keeps every memory canonical, whatever command stands at the front of the queue. The
canonical form is the model's (log entry 3). -/
def Obligations.StepKeepsMemories : Prop :=
  ∀ (s u : State), MemoriesCanonical s → step s = .next u → MemoriesCanonical u

/-- R87, R110: the memories are canonical right after reset, no charter is in effect, nothing runs, no claim is held and no command waits.
The model's choices in it: log entries 3, 8. -/
def Obligations.ResetCanonical : Prop :=
  MemoriesCanonical State.reset ∧ State.reset.pending = [] ∧ State.reset.cht.charter = none ∧
    State.reset.seq.running = false ∧ State.reset.pair.claim = 0 ∧ State.reset.sys.state = .starting

/-- R543, R574: a burnt fuse stays burnt: no command clears a bit of any fuse word, and no command but BURN changes one. The commands
that wait are those that waited.
The model's choices in it: log entry 46. -/
def Obligations.FusesAndQueueStand : Prop :=
  ∀ (s u : State) (i : Instr), exec i s = .next u →
    u.pending = s.pending ∧ (∀ w : Fin 44, u.fuses.word[w] &&& s.fuses.word[w] = s.fuses.word[w]) ∧
    ((∀ w d, i ≠ .burn w d) → u.fuses.word = s.fuses.word)

/-! ### Tasks and cycles (R111-R149, R261-R266) -/

/-- R113, R116-R119, R124, R127, R141, R142, R233, R278, R284, R311, R314, R316: the tick, with which a running watchdog counts, the record queues
drain and the pulse seams return, a cycle start with what it latches, the snapshot instant, which takes
the next stamp and reaches Lane B by the delivery list, and overruns up to the limit and past it. With the watchdog's counting clock stopped no key
lands and nothing counts; an OUT of a key stays open.
The model's choices in it: log entries 16, 17, 38, 95, 122. -/
def Obligations.TaskTime : Prop :=
  ∀ (s : State) (t : Task) (r : TaskRec), taskRec s t = some r →
    let k := s.task t
    let l := homeLane s t
    let sound := ∀ r ∈ (s.lane l).journal, r.err = false
    let drained := { tickSeams s with laneA := { s.laneA with recq := 0 }, laneB := { s.laneB with recq := 0 } }
    (s.wdt.armed = false ∨ s.wdt.stopped = true → s.pair.retake = none →
      (s.seq.running = true → swapCounts s = false →
        exec .tick s = .next { drained with seq := { s.seq with ut := s.seq.ut + 1 } }) ∧
      (s.seq.running = true → swapCounts s = true → exec .tick s = .next { drained with
        seq := { s.seq with ut := s.seq.ut + 1 }, pair := { s.pair with swapLeft := s.pair.swapLeft.map (· - 1) } }) ∧
      (s.seq.running = false → exec .tick s = .next drained)) ∧
    (s.wdt.armed = true → s.wdt.stopped = false → s.pair.retake = none → s.seq.running = true → swapCounts s = false →
      ∃ u n, exec .tick s = .next u ∧ 1 ≤ n ∧ n ≤ 3 ∧ u.wdt = { s.wdt with count := min (wdtPeriod s - 1) (s.wdt.count + n) } ∧
        u.seq.ut = s.seq.ut + 1 ∧ u.pair = s.pair ∧ (∀ c, s.cht.charter = some c → c.head.wdtClk ≠ 0 → n = 2)) ∧
    (s.wdt.armed = true → s.wdt.stopped = false → let still := { s with wdt := { s.wdt with stopped := true } }
      exec (.watchdogClockStop .countingEnds) s = .next still ∧
      (∀ key e, exec (.wdtKeyLand key e) still = .next still) ∧ exec .watchdogExpiry still = .next still ∧
      exec .watchdogPrewarning still = .next still ∧
      (∃ u, exec (.watchdogClockStop .counting) still = .next u ∧ u.wdt.trip = 4 ∧ u.pair.role = .faulted ∧ u.sys.tripPending = true) ∧
      ∀ (c : HCond) (wd wa : Reg) (imm : BitVec 14), HfRuns still c → s.hf.p = false →
        (s.hf.w[wa] + BitVec.ofNat 16 imm.toNat).toNat = 0x0E00 →
        ∃ u, exec (.hfOut c wd wa imm) still = .next u ∧ u.wdt = { still.wdt with held := true } ∧ u.hf.pc = s.hf.pc ∧
          hfFetches u = false) ∧
    (∀ a, k.phase = .ready a → a ≤ s.seq.ut → s.seq.running = true → s.sys.state = .running → roleRuns s.pair.role = true →
      s.pair.demoting = false → (s.lane l).stopped = false → s.asy.rollback = none → sound →
      ∃ u c, exec (.cycleStart t) s = .next u ∧ u.cycle l t = some c ∧ c.number = k.number ∧ c.sk = s.seq.ut ∧
        c.tk = s.seq.ut + BitVec.ofNat 72 r.delta ∧ c.fc = k.firstCycle ∧ c.replayLimit = k.replay.toNat ∧
        (u.task t).phase = .opened ∧ (u.task t).sk = s.seq.ut ∧ (u.task t).overrun = false ∧ u.seq.ut = s.seq.ut) ∧
    (∀ a, k.phase = .ready a → s.seq.ut < a → exec (.cycleStart t) s = .next s) ∧
    (∀ c, s.cycle l t = some c → k.phase = .opened → s.seq.running = true → c.tkStamp = none → c.tk ≤ s.seq.ut → sound →
      ∃ u c', exec (.snapshotInstant t) s = .next u ∧ u.cycle l t = some c' ∧ c'.tkStamp = some s.seq.stamp ∧ c'.number = c.number ∧
        u.seq.stamp = s.seq.stamp + 1 ∧
        u.seq.delivery = s.seq.delivery ++ (if isSplit s then [] else [(.tkPassage t s.seq.stamp, s.laneA.count)])) ∧
    (∀ c, s.cycle l t = some c → s.seq.ut < c.tk → exec (.snapshotInstant t) s = .next s) ∧
    (k.phase = .opened → k.overrun = false → s.seq.running = true → s.asy.rollback = none → s.pair.role ≠ .faulted →
      (k.sk + BitVec.ofNat 72 r.budget ≤ s.seq.ut → k.consec + 1 ≤ r.ovrLimit →
        ∃ u, exec (.overrun t) s = .next u ∧ u.task t = { k with ovrWarn := true, overrun := true, consec := k.consec + 1 } ∧
          u.laneA = s.laneA ∧ u.laneB = s.laneB ∧ u.pair = s.pair) ∧
      (k.sk + BitVec.ofNat 72 r.budget ≤ s.seq.ut → r.ovrLimit < k.consec + 1 → isSplit s = true →
        ∃ u, exec (.overrun t) s = .next u ∧ (u.task t).phase = .faulted ∧ u.cycle l t = none ∧ u.pair = s.pair ∧
          (s.seq.fltValid = false → u.seq.fltValid = true ∧ u.seq.fltCode = 0x23 ∧ u.seq.fltTask = t.val)) ∧
      (k.sk + BitVec.ofNat 72 r.budget ≤ s.seq.ut → r.ovrLimit < k.consec + 1 → isPaired s = true →
        ∃ u, exec (.overrun t) s = .next u ∧ (u.task t).phase = .stopped ∧ u.pair.role = .faulted) ∧
      (s.seq.ut < k.sk + BitVec.ofNat 72 r.budget → exec (.overrun t) s = .next s))

/-- R119, R121, R124, R127, R131, R133, R145, R276, R278, R285: the commit of a pair. Lane A's commit ends its cycle, takes a stamp after those of
the snapshots that are due, sets the next start at the first tick at or after the close, and waits for its verdict; Lane B receives the delivery list
entry by entry at the counts of Lane A, and makes its own commit at the
count of Lane A's. An edit waits for a commit that is ready, and else is applied at this boundary.
The model's choices in it: log entries 16, 17, 95. -/
def Obligations.CommitOfPair : Prop :=
  ∀ (s : State) (t : Task) (c : LCycle), isPaired s = true → (∀ r ∈ s.laneA.journal ++ s.laneB.journal, r.err = false) →
    (∀ v ∈ s.laneA.vein ++ s.laneA.readSet ++ s.laneB.vein ++ s.laneB.readSet, v.err = false) →
    (commitReady s t = true → exec (.commit t) s = .next (commitTask (dueSnapshots s) t)) ∧
    (s.cycle .a t = some c → commitReady s t = true → (∀ u, snapshotDue s u = false) →
      ∃ u v, exec (.commit t) s = .next u ∧ u.asy.pend = s.asy.pend ++ [v] ∧ v.kind = .commit ∧ v.task = t ∧ v.cycle = c.number ∧
        v.count = s.laneA.count ∧ v.stamp = s.seq.stamp ∧ v.sigB = none ∧ v.close = s.seq.ut ∧ v.sub < 1000 ∧ u.cycle .a t = none ∧
          u.seq.stamp = s.seq.stamp + 1 ∧
        u.seq.delivery = s.seq.delivery ++ [(.commitDone t, s.laneA.count)] ∧ u.laneB = s.laneB ∧
        ((s.task t).overrun = false → (u.task t).number = (s.task t).number + 1 ∧ (u.task t).consec = 0) ∧
        ((s.task t).overrun = true → (u.task t).number = (s.task t).number + 2 ∧ (u.task t).consec = (s.task t).consec) ∧
        ((s.task t).stopReq = true → (u.task t).phase = .stopped) ∧
        (∀ r, taskRec s t = some r → (s.task t).overrun = false → (s.task t).stopReq = false →
          (u.task t).phase = .ready ((if v.sub = 0 then s.seq.ut else s.seq.ut + 1) + BitVec.ofNat 72 r.minGap))) ∧
    (commitReady s t = false → exec (.commit t) s = .next s) ∧
    (commitReady s t = true → s.seq.editNext = false → exec .editApplication s = .next s) ∧
    (commitBefore s = false → deliveryFull s = false → editWord s 2 ≠ 0 → s.sys.state = .running → s.asy.rollback = none →
      exec .editApplication s = .next (dispatchBoth (applyEdit (dueSnapshots s)))) ∧
    (∀ rest n, s.seq.delivery = (.commitDone t, n) :: rest → exec .laneBDelivery s = .next s) ∧
    (∀ e n rest, s.seq.delivery = (e, n) :: rest → n ≠ s.laneB.count → exec .laneBDelivery s = .next s) ∧
    (∀ rest, s.seq.delivery = (.preempt, s.laneB.count) :: rest → exec .laneBDelivery s =
      .next { s with seq := { s.seq with delivery := rest }, laneB := { s.laneB with preReq := true } }) ∧
    (∀ rest, s.seq.delivery = (.tramDone t, s.laneB.count) :: rest → exec .laneBDelivery s =
      .next (State.modCycle { s with seq := { s.seq with delivery := rest } } .b t (fun k => { k with tramBusy := false }))) ∧
    (∀ n rest, s.seq.delivery = (.tkPassage t n, s.laneB.count) :: rest → s.cycle .b t = some c →
      ∃ u c', exec .laneBDelivery s = .next u ∧ u.seq.delivery = rest ∧ u.cycle .b t = some c' ∧ c'.tkStamp = some n ∧
        u.laneA = s.laneA) ∧
    (∀ k rest, s.seq.delivery = (.cycleStart t k, s.laneB.count) :: rest →
      ∃ u k', exec .laneBDelivery s = .next u ∧ u.seq.delivery = rest ∧ u.cycle .b t = some k' ∧ k'.number = k.number ∧ k'.sk = k.sk ∧
        k'.tk = k.tk ∧ (u.tly.task[t]).checkIns = 0 ∧ u.laneA = s.laneA) ∧
    (∀ v vs rest, s.cycle .b t = some c → c.atCommit = true → s.laneB.cur = some t → c.saved = false → s.laneB.stopped = false →
      s.asy.rollback = none → commitPending s = false →
      checkpointPending s = false → preemptDue s .b = false → s.seq.delivery = (.commitDone t, s.laneB.count) :: rest → s.asy.pend = v :: vs →
      v.kind = .commit → v.task = t → v.count = s.laneB.count → v.sigB = none →
      ∃ u sig eg nr, exec (.laneBCommit t) s = .next u ∧ u.asy.pend = { v with sigB := some sig, egB := eg, noRelease := nr } :: vs ∧
        u.seq.delivery = rest ∧ u.cycle .b t = none ∧ u.laneA.mem = s.laneA.mem)

/-- R122, R123, R262, R263, R264, R265, R266: the context area. A pre-emption, or a switch from a task that has no work, writes the 24 words of the
save area and frees the lane; a
restore takes the registers back and clears VALID, and one whose checks fail is a double fault CTX_DESC. What a save wrote passes the
checks of a restore and gives the registers back.
The model's choices in it: log entries 6, 103. -/
def Obligations.ContextArea : Prop :=
  ∀ (s : State) (l : LaneId) (t : Task) (c : LCycle) (i : Nat) (d : SegRec), s.cycle l t = some c → ctxSegment s l t = some (i, d) →
    (s.lane l).stopped = false → s.asy.rollback = none → (List.range 24).any (fun j => (s.lane l).wordBad (d.base + j)) = false →
    let x := s.lane l
    (x.cur = some t → switchDue s l = true → x.halted = false → c.hold ≠ .waitFull → x.vein.length + x.readSet.length ≤ 262144 →
      d.base % 2 = 0 → 24 ≤ d.limit → i ∉ x.descPar →
      ∃ u v, exec (.preEmption l) s = .next u ∧ u = dispatch (if leads s l && !yields s l then deliver v .preempt else v) l ∧
        (v.lane l).mem = memWriteSeq x.mem d.base (saveArea x.ctx c.number t) ∧ (v.lane l).cur = none ∧ (v.lane l).ctx = x.ctx ∧
        v.cycle l t = some { c with saved := true } ∧ (v.lane l).journal = x.journal) ∧
    (x.cur = none → x.pick = some t → c.saved = true → i ∉ x.descPar →
      (24 ≤ d.limit → contextValid s l t c (memWords x.mem d.base 24) = true →
        ∃ u, exec (.contextRestore l) s = .next u ∧ (u.lane l).cur = some t ∧
          (u.lane l).ctx = contextOf s l t (memWords x.mem d.base 24) ∧
          (u.lane l).mem = memSet x.mem (d.base + 21) (BitVec.ofNat 36 t.val) ∧ u.cycle l t = some { c with saved := false } ∧
          u.seq = s.seq ∧ u.msg = s.msg) ∧
      (d.limit < 24 ∨ contextValid s l t c (memWords x.mem d.base 24) = false →
        exec (.contextRestore l) s = .next (taskFault s t c.number 0x21 true (some l) 3 0 0))) ∧
    (∀ y : Ctx, y.sel = taskSelectors s l t → y.stack.length ≤ 8 → (y.atEnd = true → y.pc = 0) →
      (y.atEnd = false → y.pc.toNat < progLength s l) →
      contextValid s l t c (saveArea y c.number t) = true ∧ contextOf s l t (saveArea y c.number t) = y ∧
        (saveArea y c.number t).length = 24)

/-- R126, R127, R144, R145, R146, R147, R148, R159, R279, R424, R425, R426: the edit queue and the ingress blocks, with the states in which
EDIT_APPLICATION, INGRESS_APPLICATION, FRESHNESS_EXPIRY and INGRESS_SET_TIMEOUT complete, and what each completes with. At a commit boundary
EDIT_APPLICATION completes with the oldest edit
applied as an event of its own: the control words move on, the word holds the new value in the committed content of its lane, and the stamp is
taken, after those of the snapshots that are due. With a full delivery list the edit is held and counted once; with nothing queued, or where a
commit that is ready goes first, nothing happens.
The model's choices in it: log entries 13, 69, 95, 102. -/
def Obligations.EditQueue : Prop :=
  ∀ (s : State), Memory.wf s.msg = true → s.sys.state = .running → s.asy.rollback = none →
    let head := editWord s 0
    let e := editEntry s head
    let l := editLane s e.lanes
    (editWord s 2 = 0 ∨ commitBefore s = true → exec .editApplication s = .next s) ∧
    (editWord s 2 ≠ 0 → commitBefore s = false → deliveryFull s = true → s.seq.editHeld = false → exec .editApplication s =
      .next { s with seq := { s.seq with editHeld := true }, asy := { s.asy with holds := min 0x7FFF (s.asy.holds + 1) } }) ∧
    (editWord s 2 ≠ 0 → commitBefore s = false → deliveryFull s = false →
      exec .editApplication s = .next (dispatchBoth (applyEdit (dueSnapshots s)))) ∧
    (∀ b x rest r, s.ing.ready = x :: rest → x.block = b → ingressRec s b = some r → deliveryFull s = false →
      exec (.ingressApplication b) s = .next (dispatchBoth (applyBlock { s with ing := { s.ing with ready := rest } } r x))) ∧
    (∀ b r f, ingressRec s b = some r → (ingBlk s b).fresh = some f → stale s r f = true → (ingBlk s b).valid = true →
      let v := imageBase + r.validWord
      let w := (imageLane s).store.committed v &&& ~~~(1#36 <<< r.validBit)
      exec (.freshnessExpiry b) s = .next (dispatchBoth ((enterImage s [(v, w)]).modIng b (fun k => { k with valid := false })))) ∧
    (∀ b, (ingBlk s b).open_ ≠ none →
      exec (.ingressSetTimeout b) s = .next (incomplete (s.modIng b (fun k => { k with open_ := none })))) ∧
    (editWord s 2 ≠ 0 → commitBefore s = false → deliveryFull s = false → ∃ u, exec .editApplication s = .next u ∧
      editWord u 0 = (head + 1) % 256 ∧ editWord u 2 = editWord s 2 - 1 ∧ editWord u 4 = (editWord s 4 + 1) % 65536 ∧
      editWord u 1 = editWord s 1 ∧ (editEntry u head).addr = e.addr ∧ (editEntry u head).new = e.new ∧
      ((∀ t, snapshotDue s t = false) → u.seq.stamp = s.seq.stamp + 1) ∧ u.seq.editHeld = false ∧ u.seq.editNext = false) ∧
    ∀ (a : Nat) (w : W36) (n : Nat), Memory.wf (s.lane l).mem = true → (s.lane l).journal.length < 65536 →
      (∀ v ∈ (s.lane l).vein ++ (s.lane l).readSet, v.err = false) →
      ((laneEvent l n s (a, w)).lane l).store.committed a = w ∧ ∀ b, b ≠ a →
        ((laneEvent l n s (a, w)).lane l).store.committed b = (s.lane l).store.committed b

/-! ### Replay, the assay, the watchdog and the trams -/

/-- R160, R164, R167, R169, R172, R175, R268, R274: a cycle whose Tk has passed. Its earliest dirty instance is set up for replay with its entry
registers, or is a task fault where its entry cannot be read; with nothing dirty the fence at which the forward pass stands is entered, and a
provisional exception is taken, or
discarded where its own instance is dirty, by Lane B as its gate lets it come there; a cycle that fell back begins again at ENTRY. A record that may
retire leaves the journal.
The model's choices in it: log entries 15, 19, 21. -/
def Obligations.ReplayAndFences : Prop :=
  ∀ (s : State) (l : LaneId) (t : Task) (c : LCycle), standing s l = some (t, c) →
    let x := s.lane l
    (∀ q i, c.stopped = true → firstIdx (fun n : Inst => n.dirty) c.insts = some q → c.insts[q]? = some i → i.err = true →
      exec (.replayInstance l) s = .next (taskFault s t c.number 0x08 false (some l) 3 0 0)) ∧
    (∀ q i, c.stopped = true → firstIdx (fun n : Inst => n.dirty) c.insts = some q → c.insts[q]? = some i → i.err = false →
      ∃ u c', exec (.replayInstance l) s = .next u ∧ u.cycle l t = some c' ∧ c'.cur = q ∧ c'.pass = .replay ∧ c'.hold = .run ∧
        c'.insts[q]? = some { i with dirty := false, tokens := [], length := 0 } ∧
        (u.lane l).ctx = blockEntryClear x.ctx i.entry.toNat i.x13in i.x14in ∧ (u.lane l).mem = x.mem ∧ (u.lane l).count = x.count) ∧
    (c.anyDirty = false → exec (.replayInstance l) s = .next s) ∧
    (c.hold = .fence → c.anyDirty = false → c.pass ≠ .full → x.instUse < 65536 →
      ∃ u c', exec (.forwardPassResume l) s = .next u ∧ u.cycle l t = some c' ∧ c'.hold = .run ∧ c'.cur = c.insts.length ∧
        c'.insts = c.insts ++ [Inst.start x.blocks c.fwd c.fwd13 c.fwd14] ∧
        (u.lane l).ctx = blockEntryClear x.ctx c.fwd c.fwd13 c.fwd14 ∧ (u.lane l).mem = x.mem) ∧
    (∀ code elem par, c.hold = .provisional code elem par → l = .b → isSplit s = false → laneBGate s = false →
      exec (.provisionalExceptionTaken l) s = .next s) ∧
    (∀ code elem par, c.hold = .provisional code elem par → (l = .b → isSplit s = false → laneBGate s = true) →
      (c.insts.take (c.insts.length - 1)).any (·.dirty) = false →
      (c.anyDirty = false → exec (.provisionalExceptionTaken l) s = .next (takeException s l t code.toNat 0 c.fwd elem par)) ∧
      (c.anyDirty = true → exec (.provisionalExceptionTaken l) s =
        .next (s.modCycle l t (fun k => { k with hold := .replayNext, fwdHold := .run })))) ∧
    (∀ r, c.hold = .waitFull → taskRec s t = some r →
      ∃ u c', exec (.fullReexecution l) s = .next u ∧ u.cycle l t = some c' ∧ c'.pass = .full ∧ c'.hold = .run ∧ c'.number = c.number ∧
        (u.lane l).ctx = { Ctx.init with sel := taskSelectors s l t, pc := BitVec.ofNat 20 r.entry } ∧ (u.lane l).mem = x.mem) ∧
    (x.journal.any (retirable s l) = true → ∃ u, exec (.journalRecordRetire l) s = .next u ∧
      (u.lane l).journal.length + 1 = x.journal.length ∧ (u.lane l).mem = x.mem ∧ (u.lane l).ctx = x.ctx ∧
      ∀ r, retirable s l r = false → (r ∈ (u.lane l).journal ↔ r ∈ x.journal)) ∧
    (x.journal.any (retirable s l) = false → exec (.journalRecordRetire l) s = .next s)

/-- R277, R286, R287, R289, R290, R293, R295, R298, R559: verdicts. Agreement releases the oldest pending commit; a difference, or a lane that
does not come, is recorded and captured, and starts a rollback, or is a unit fault during recovery; a rollback leaves nothing pending and
reopens every cycle for full re-execution; a standby's injection test passes or is a unit fault. Comparators that differ are mismatch 8.
The model's choices in it: log entries 6, 19, 20. -/
def Obligations.AssayVerdicts : Prop :=
  ∀ (s : State) (v : Verdict) (rest : List Verdict), s.asy.pend = v :: rest → isPaired s = true → s.asy.gate = true →
    s.asy.rollback = none → resetUnderWay s = false →
    let fair : AssayHw := { forceA := none, forceB := none, gateProof := true }
    let judged := { s with asy := { s.asy with pend := rest, opened := s.asy.opened || v.kind != .ckpt } }
    let recovers := fun (u : State) (code : Nat) => u.asy.recovery = true ∧ u.asy.rollback = some v.count ∧ u.asy.pend = s.asy.pend ∧
      (s.asy.misValid = false → u.asy.misValid = true ∧ u.asy.misCode = code ∧ u.asy.misTask = v.task.val ∧ u.asy.misN = v.count ∧
        u.asy.misCyc = v.cycle) ∧ u.laneA = s.laneA ∧ u.laneB = s.laneB
    (∀ sig, v.sigB = some sig →
      (v.equal = true → exec (.assayVerdict fair) s = .next (dispatchBoth (releaseVerdict judged v)) ∧
        ∃ u, exec (.assayVerdict fair) s = .next u ∧ u.asy.pend = rest ∧ u.asy.rollback = none ∧
          u.asy.misValid = s.asy.misValid ∧ (v.kind = .commit → u.asy.agreed = v.sigA)) ∧
      (∀ (a b : Bool) (proof : Bool), a = true → b = true → (proof = true ∨ v.kind = .ckpt) →
        exec (.assayVerdict { forceA := some a, forceB := some b, gateProof := proof }) s =
          .next (dispatchBoth (releaseVerdict judged v))) ∧
      (∀ (a b : Bool) (proof : Bool), a ≠ b → s.asy.recovery = false → s.pair.role ≠ .handOut → s.pair.role ≠ .handIn →
        ∃ u, exec (.assayVerdict { forceA := some a, forceB := some b, gateProof := proof }) s = .next u ∧ recovers u 8) ∧
      (v.equal = false → s.asy.recovery = false → s.pair.role ≠ .handOut → s.pair.role ≠ .handIn →
        ∃ u, exec (.assayVerdict fair) s = .next u ∧ recovers u v.mismatchCode) ∧
      (v.equal = false → s.asy.recovery = true → ∃ u, exec (.assayVerdict fair) s = .next u ∧ u.asy.perm = true ∧
        u.pair.role = .faulted) ∧
      (v.equal = true → v.kind ≠ .ckpt → ∃ u, exec (.assayVerdict { fair with gateProof := false }) s = .next u ∧
        u.asy.perm = true ∧ u.pair.role = .faulted)) ∧
    (v.sigB = none → exec (.assayVerdict fair) s = .next s) ∧
    (v.sigB = none → v.kind = .commit ∨ v.kind = .ckpt → s.asy.recovery = false → s.pair.role ≠ .handOut → s.pair.role ≠ .handIn →
      ∃ u, exec .catchupLimitExpiry s = .next u ∧ recovers u 7) ∧
    exec .assayRollback s = .next s ∧
    (∀ n, s.pair.role ≠ .faulted → ∃ u, exec .assayRollback { s with asy := { s.asy with rollback := some n } } = .next u ∧
      u.asy.pend = [] ∧ u.asy.rollback = none ∧ u.asy.effects = [] ∧ u.asy.exc = none ∧ u.seq.delivery = [] ∧
      u.laneA.count = s.laneB.count ∧ ∀ t k, u.cycle .a t = some k → k.pass = .full ∧ k.reopened = true) ∧
    (s.pair.role = .standby →
      exec (.standbyInjectionTest 0) s = .next { s with asy := { s.asy with injRan := true, injOk := true, injFail := 0 } } ∧
      ∀ f : Byte, f ≠ 0 → ∃ u, exec (.standbyInjectionTest f) s = .next u ∧ u.asy.injRan = true ∧ u.asy.injOk = false ∧
        u.asy.injFail = f ∧ u.pair.role = .faulted) ∧
    (s.pair.role ≠ .standby → ∀ f, exec (.standbyInjectionTest f) s = .next s)

/-- R311, R313, R315, R316, R317: the system watchdog, armed. A key in the open window restarts the count; an early key, a wrong key, the
end of the period and a stopped clock trip: a unit fault and a reset of cause 4. The pre-warning rises at its count. Not armed, a
key is only noted. -/
def Obligations.Watchdog : Prop :=
  ∀ (s : State), s.wdt.armed = true → s.wdt.stopped = false →
    let n := fun (elapsed : Nat) => min (wdtPeriod s - 1) (s.wdt.count + elapsed)
    let trips := fun (out : Out) (trip : Nat) => ∃ u, out = .next u ∧ u.wdt.trip = trip ∧ u.pair.role = .faulted ∧
      u.sys.tripPending = true ∧ (resetUnderWay s = false → u.sys.cause = 4 ∧ u.sys.phase = .entered ∧ u.sys.coldClass = false ∧
        u.laneA.stopped = true ∧ u.laneB.stopped = true)
    (∀ e, wdtOpens s ≤ n e → exec (.wdtKeyLand 0xC3A5 e) s =
      .next { s with wdt := { s.wdt with last := 1, land := n e, count := 0, served := sat16 s.wdt.served 1 } }) ∧
    (∀ e, n e < wdtOpens s → trips (exec (.wdtKeyLand 0xC3A5 e) s) 1 ∧
      ∀ u, exec (.wdtKeyLand 0xC3A5 e) s = .next u → u.wdt.last = 2) ∧
    (∀ e key, key ≠ 0xC3A5 → trips (exec (.wdtKeyLand key e) s) 2 ∧ ∀ u, exec (.wdtKeyLand key e) s = .next u → u.wdt.last = 3) ∧
    trips (exec .watchdogExpiry s) 3 ∧ trips (exec (.watchdogClockStop .counting) s) 4 ∧ trips (exec (.watchdogClockStop .watching) s) 5 ∧
    (s.wdt.preMs ≠ 0 → exec .watchdogPrewarning s = .next (notifySeam { s with wdt := { s.wdt with
      prewarn := true, count := max s.wdt.count (max (wdtPeriod s - 2000 * s.wdt.preMs) (wdtOpens s)) } } 0)) ∧
    (s.wdt.preMs = 0 → exec .watchdogPrewarning s = .next s) ∧
    let off := { s with wdt := { s.wdt with armed := false } }
    (∀ key e, exec (.wdtKeyLand key e) off = .next { off with wdt := { off.wdt with last := 4 } }) ∧
      exec .watchdogExpiry off = .next off

/-- R248, R251, R255-R260, R271: the trams. Channels are served round-robin, one element at a time. A Headframe channel copies one element of
message RAM, four words with the fourth zero, stops with RAM_RANGE beyond the RAM, and ends at COUNT; an abort stops it with ABORTED at
the next element; a channel of a task refuses the control ports; a start reads the descriptor and stops at once where it is invalid.
The model's choices in it: log entries 36, 38, 130, 131. -/
def Obligations.TramTransfers : Prop :=
  ∀ (s : State) (ch : TramCh),
    let c := s.tram.ch[ch]
    let d := ramDescriptor s.msg ch
    let o := openBlockGate s (trmCtl ch)
    let served := { s with tram := { s.tram with last := ch } }
    ((∀ q : TramCh, s.tram.ch[q].busy = false) → exec .tramElement s = .next s) ∧
    (nextChannel s = some ch →
      (c.abortReq = true → ∃ u, exec .tramElement s = .next u ∧ u.tram.ch[ch].busy = false ∧ u.tram.ch[ch].fault = true ∧
        u.tram.ch[ch].code = 0x45 ∧ u.tram.ch[ch].k = c.k ∧ u.msg = s.msg ∧ u.tram.last = ch) ∧
      (c.abortReq = false → taskOwned s ch = false → c.desc.srcRam = true →
        (c.desc.srcOff + 4 * c.k + 3 < 131072 → c.desc.dstOff + 4 * c.k + 3 < 131072 →
          ∃ u, exec .tramElement s = .next u ∧
            u.msg = (putElement served (c.desc.dstOff + 4 * c.k) (ramElement s.msg (c.desc.srcOff + 4 * c.k))).msg ∧
            u.tram.ch[ch].k = c.k + 1 ∧ (u.tram.ch[ch].busy = true ↔ c.busy = true ∧ c.k + 1 ≠ c.desc.count) ∧
            (c.k + 1 = c.desc.count → u.tram.ch[ch].done = true ∧ u.tram.ch[ch].fault = false ∧ u.tram.ch[ch].code = 0) ∧
            u.laneA = s.laneA ∧ u.laneB = s.laneB) ∧
        (131072 ≤ c.desc.srcOff + 4 * c.k + 3 → ∃ u, exec .tramElement s = .next u ∧ u.tram.ch[ch].busy = false ∧
          u.tram.ch[ch].code = 0x40 ∧ u.tram.ch[ch].k = c.k ∧ u.msg = s.msg)) ∧
      (c.abortReq = false → taskOwned s ch = true → isPaired s = true → c.desc.srcRam = false → c.desc.dstRam = true →
        c.desc.dstOff + 4 * c.k + 3 < 131072 → ∀ w, sourceIn served .a ch c.desc c.k = (0, w) →
          sourceIn served .b ch c.desc c.k = (0, w) → ∃ u, exec .tramElement s = .next u ∧ u.tram.ch[ch].k = c.k + 1 ∧
            u.msg = (putElement served (c.desc.dstOff + 4 * c.k) w).msg)) ∧
    (taskOwned s ch = true →
      (∀ out, out = exec (.trmGo ch false) s ∨ out = exec (.trmResume ch false) s ∨ out = exec (.trmAbort ch false) s →
        out = .next { o with tram := { o.tram with denied := true } })) ∧
    (taskOwned s ch = false →
      (c.busy = false → d.valid = true → ∃ u, exec (.trmGo ch false) s = .next u ∧ u.tram.ch[ch].busy = true ∧
        u.tram.ch[ch].k = d.first ∧ u.tram.ch[ch].desc = d ∧ u.tram.ch[ch].fault = false ∧ u.msg = s.msg) ∧
      (c.busy = false → d.valid = false → ∃ u, exec (.trmGo ch false) s = .next u ∧ u.tram.ch[ch].busy = false ∧
        u.tram.ch[ch].fault = true ∧ u.tram.ch[ch].code = 0x43 ∧ u.msg = s.msg) ∧
      (c.busy = false → { d with first := c.k }.valid = true → ∃ u, exec (.trmResume ch false) s = .next u ∧
        u.tram.ch[ch].busy = true ∧ u.tram.ch[ch].k = c.k) ∧
      (c.busy = true → exec (.trmAbort ch false) s = .next (o.modTram ch (fun x => { x with abortReq := true })) ∧
        exec (.trmGo ch false) s = .next o) ∧
      (c.busy = false → exec (.trmAbort ch false) s = .next o))

/-! ### The pair (R319-R355) -/

/-- R320, R322, R323, R325-R327, R329-R331, R336, R337, R343, R344, R346-R351, R354, R558, R610: what a part does on its link by itself.
Timers queue frames, a HEARTBEAT before every frame that waits; a queued frame leaves with the next sequence number and its CRC; missed
heartbeats count up to the loss of the partner; a take is a commit of the next epoch; swaps are refused, forwarded or begun; a swap is
aborted with ABORT; and a lasting loss of the claim wire is recorded.
The model's choices in it: log entries 12, 36, 80, 81, 82, 83, 84, 85, 105, 107. -/
def Obligations.PairActions : Prop :=
  ∀ (s : State),
    let p := s.pair
    let queued := fun (f : TxFrame) => if linkUp s = true then p.txQueue ++ [f] else p.txQueue
    (linkUp s = true → exec .heartbeatTimer s = .next { s with pair := { p with txQueue := .heartbeat :: p.txQueue } }) ∧
    (linkUp s = true → sendsHello s = true → exec .helloTimer s = .next { s with pair := { p with txQueue := p.txQueue ++ [.hello] } }) ∧
    (sendsHello s = false → exec .helloTimer s = .next s) ∧
    (linkUp s = false → exec .heartbeatTimer s = .next s ∧ exec .helloTimer s = .next s ∧ exec .heartbeatMissed s = .next s) ∧
    (linkUp s = true → p.missing + 1 < 4 → exec .heartbeatMissed s =
      .next { s with pair := { p with missing := p.missing + 1, missed := sat16 p.missed 1 } }) ∧
    (linkUp s = true → p.missing = 3 → s.asy.recovery = false →
      (p.present = true → p.role = .active → ∃ u, exec .heartbeatMissed s = .next u ∧
        u.pair = { p with missing := 4, missed := sat16 p.missed 1, present := false }) ∧
      (p.present = true → p.role = .handOut → p.handSent = false → ∃ u, exec .heartbeatMissed s = .next u ∧
        u.pair.role = .active ∧ u.pair.swapRefused = true ∧ u.pair.txQueue = p.txQueue ++ [.abort 6] ∧ u.pair.present = false) ∧
      (p.role = .standby → p.mirror = .mirrored → p.take = none → wireAllows s = true →
        ∃ u, exec .heartbeatMissed s = .next u ∧ u.pair.take = some .takeover ∧ u.pair.present = false ∧ u.pair.role = .standby ∧
          u.pair.trigger = some s.seq.ut)) ∧
    (linkUp s = true → p.missing = 3 → p.present = true → s.asy.recovery = true → ∃ u, exec .heartbeatMissed s = .next u ∧
      u.pair.role = .faulted) ∧
    (s.sys.phase = .negotiating → linkUp s = true → p.role = .negotiate → p.take = none →
      exec .pairWaitExpiry s = .next { s with pair := { p with take := some .alone } }) ∧
    (p.role ≠ .negotiate → exec .pairWaitExpiry s = .next s) ∧
    (p.txQueue = [] → exec .tchiasFrameSend s = .next s) ∧
    (∀ f rest, p.txQueue = f :: rest → ∃ u g, exec .tchiasFrameSend s = .next u ∧ u.pair.txQueue = rest ∧ u.pair.txSeq = p.txSeq + 1 ∧
      u.pair.txLast = some g ∧ g.seq = p.txSeq ∧ g.bytes = g.encode ∧ u.pair.queueBytes = p.queueBytes - frameBytes f ∧
      u.pair.role = p.role ∧ ((∀ tok, f ≠ .hand tok) → g.frame = f) ∧
      (∀ tok, f = .hand tok → g.frame = .hand { tok with utime := s.seq.ut, high := p.high.setWidth 32, dseq := p.dseq }) ∧
      (f = .heartbeat → ∃ h, g.heartbeat = some h ∧ h.claim = p.claim ∧ h.role = BitVec.ofNat 8 p.role.code ∧ h.utime = s.seq.ut ∧
        h.dseq = p.dseq)) ∧
    (∀ a rest, p.role = .active → linkUp s = true → p.resyncLeft = some (a :: rest) →
      let run := addressRun 255 (a :: rest)
      (run.length < rest.length + 1 → ∃ u, exec .resyncFrameSend s = .next u ∧
        u.pair.txQueue = p.txQueue ++ [.resync (BitVec.ofNat 32 a) (run.map (s.laneA.store.committed ·))] ∧
        u.pair.resyncLeft = some ((a :: rest).drop run.length) ∧ u.pair.resyncSent = p.resyncSent + run.length) ∧
      (run.length = rest.length + 1 → ∃ u tok, exec .resyncFrameSend s = .next u ∧ u.pair.txQueue =
        p.txQueue ++ [.resync (BitVec.ofNat 32 a) (run.map (s.laneA.store.committed ·)), .hand tok] ∧ u.pair.resyncLeft = none ∧
        tok.dseq = p.dseq)) ∧
    (∀ why, p.take = some why →
      (p.high.toNat < 0x7FFFFFFF → ∀ s1, firmwareCommit s sysEpoch (leBytes 4 (p.high.toNat + 1)) = (s1, true) →
        ∃ u, exec .claimTake s = .next u ∧ u.pair.claim = BitVec.ofNat 32 (2 * (p.high.toNat + 1) + claimUnit s1) ∧
          u.pair.high = p.high + 1 ∧ u.pair.lastClaim = u.pair.claim ∧ u.pair.take = none ∧
          u.pair.role = (if why = .alone then .alone else .active) ∧
          (why = .swap ∨ why = .takeover → linkUp s1 = true →
            u.pair.txQueue = s1.pair.txQueue ++ [.confirm u.pair.claim s1.pair.dseq])) ∧
      (p.high.toNat < 0x7FFFFFFF → ∀ s1, firmwareCommit s sysEpoch (leBytes 4 (p.high.toNat + 1)) = (s1, false) →
        ∃ u, exec .claimTake s = .next u ∧ u.pair.claim = s1.pair.claim ∧ u.pair.take = none ∧
          (why = .takeover → u.pair.role = s1.pair.role) ∧ (why = .swap → u.pair.role = .standby) ∧
          (why = .alone ∨ why = .active → u.pair.role = .wait ∧ u.pair.retake = some why)) ∧
      (p.high.toNat = 0x7FFFFFFF → ∃ u, exec .claimTake s = .next u ∧ u.pair.claim = p.claim ∧ u.pair.take = none ∧
        (why = .alone ∨ why = .active → u.pair.role = .wait ∧ u.pair.retake = none))) ∧
    (p.take = none → exec .claimTake s = .next s) ∧
    (swapCounts s = true → p.swapLeft = some 0 → p.swapRetryDue = false →
      (swapRefusal s = 0 → ∃ u, exec .swapTimer s = .next u ∧ u.pair.role = .handOut ∧ u.pair.handSent = false ∧
        u.pair.swapRetryDue = true) ∧
      (swapRefusal s ≠ 0 → ∃ u, exec .swapTimer s = .next u ∧ u.pair.role = .active ∧ u.pair.swapRefused = true ∧
        u.pair.swapRetryDue = true)) ∧
    (p.swapLeft ≠ some 0 → exec .swapTimer s = .next s) ∧
    (p.swapRetryDue = true → p.role = .active → swapRefusal s = 0 → ∃ u, exec .swapRetryTimer s = .next u ∧ u.pair.role = .handOut ∧
      u.pair.trigger = some s.seq.ut) ∧
    (p.swapRetryDue = false → exec .swapRetryTimer s = .next s) ∧
    (p.role = .standby → linkUp s = true → exec (.pairCmdSwap false) s = .next { openBlockGate s 0x100B with
      pair := { p with txQueue := p.txQueue ++ [.swapReq 1] } }) ∧
    (p.role = .active → swapRefusal s = 0 → ∃ u, exec (.pairCmdSwap false) s = .next u ∧ u.pair.role = .handOut) ∧
    (swapRefusal s ≠ 0 → ∃ u, exec (.pairCmdSwap false) s = .next u ∧ u.pair = { p with swapRefused := true }) ∧
    (linkUp s = true → exec (.pairCmdPartnerReset false) s = .next { openBlockGate s 0x100B with
      pair := { p with txQueue := p.txQueue ++ [.resetReq] } }) ∧
    (p.role = .handOut → p.handSent = false → handReady s = true → linkUp s = true → exec .handSend s =
      .next { s with pair := { p with txQueue := p.txQueue ++ [.hand (ownToken s)], handSent := true } }) ∧
    (p.role = .handOut → p.handSent = true → ∃ u, exec .confirmTimeout s = .next u ∧ u.pair.role = .active ∧ u.pair.handSent = false ∧
      u.pair.swapRefused = true ∧ u.pair.txQueue = queued (.abort 5)) ∧
    (p.role ≠ .handOut → exec .handSend s = .next s ∧ exec .confirmTimeout s = .next s) ∧
    (p.cwOk = false → p.present = true → p.role = .standby → p.cwLong = false → ∃ u, exec .claimWireLongLoss s = .next u ∧
      u.pair = { p with cwLong := true }) ∧
    (p.cwOk = true → exec .claimWireLongLoss s = .next s ∧ exec .claimWireLongValid s = .next { s with pair := { p with cwLong := false } })

/-- R320, R325, R326, R328, R329, R336-R338, R341-R344, R346, R348-R351, R354, R553: what the frames of the Tchias link do at the part that
receives them. A frame is judged by its sender's role, and takes its SEQ; a part without a link receives none. While a recovery lasts a
discarded frame and a gap are unit faults.
The model's choices in it: log entries 6, 81, 82, 83, 84, 105, 107. -/
def Obligations.PairFrames : Prop :=
  (∀ (s : State) (seq : W32), linkUp s = false →
    (∀ f ns, exec (.hello seq f ns) s = .next s) ∧ (∀ f, exec (.heartbeat seq f) s = .next s) ∧
    (∀ last recs tr, exec (.delta seq last recs tr) s = .next s) ∧ (∀ a ws, exec (.resync seq a ws) s = .next s) ∧
    (∀ a, exec (.lag seq a) s = .next s) ∧ (∀ tok, exec (.hand seq tok) s = .next s) ∧ (∀ c d, exec (.confirm seq c d) s = .next s) ∧
    (∀ r, exec (.abort seq r) s = .next s) ∧ (∀ c t n, exec (.fault seq c t n) s = .next s) ∧
    (∀ k, exec (.resetReq seq k) s = .next s) ∧ (∀ o, exec (.swapReq seq o) s = .next s) ∧
    ∀ why, exec (.tchiasFrameDiscard why) s = .next s) ∧
  (∀ (s : State) (seq : W32), linkUp s = true → s.asy.recovery = true →
    (∀ why, ∃ u, exec (.tchiasFrameDiscard why) s = .next u ∧ u.pair.role = .faulted ∧ u.pair.linkErr = sat16 s.pair.linkErr 1) ∧
    ∀ f r, Role.ofCode f.role.toNat = some r → seqGap s seq = true → ∃ u, exec (.heartbeat seq f) s = .next u ∧
      u.pair.role = .faulted ∧ u.pair.prole = r ∧ u.pair.rxSeq = some seq) ∧
  ∀ (s : State) (seq : W32), linkUp s = true → s.asy.recovery = false →
    let p := s.pair
    let inOrder := p.rxSeq = some (seq - 1)
    let discarded := .next { s with pair := { p with linkErr := sat16 p.linkErr 1 } }
    let noted := .next { s with pair := { p with rxSeq := some seq } }
    (∀ why, exec (.tchiasFrameDiscard why) s = discarded) ∧
    (∀ f ns, Role.ofCode f.role.toNat = none → exec (.hello seq f ns) s = discarded) ∧
    (∀ f, Role.ofCode f.role.toNat = none → exec (.heartbeat seq f) s = discarded) ∧
    (∀ f ns r, Role.ofCode f.role.toNat = some r → s.sys.phase ≠ .negotiating ∨ p.role ≠ .negotiate → p.role ≠ .alone →
      p.role ≠ .active ∨ p.demoting = true →
      ∃ u, exec (.hello seq f ns) s = .next u ∧ u.pair.prole = r ∧ u.pair.lastHello = seq ∧ u.pair.rxSeq = some seq ∧
        u.pair.role = p.role ∧ p.high.toNat ≤ u.pair.high.toNat ∧ f.high.toNat % 2 ^ 31 ≤ u.pair.high.toNat ∧
        f.lastClaim.toNat / 2 ≤ u.pair.high.toNat) ∧
    (∀ f ns r, Role.ofCode f.role.toNat = some r →
      let own := helloPayload s 0
      let compatible := f.pairId = own.pairId ∧ f.generation = own.generation ∧ f.pairHash = own.pairHash ∧ f.progHash = own.progHash ∧
        f.unit ≠ own.unit
      (s.sys.phase = .negotiating → p.role = .negotiate → p.take = none →
        (¬compatible → ∃ u, exec (.hello seq f ns) s = .next u ∧ u.pair.role = .wait ∧ u.pair.incompat = true) ∧
        (compatible → holdsClaim r = true → ∃ u, exec (.hello seq f ns) s = .next u ∧ u.pair.role = .standby) ∧
        (compatible → r = .standby ∨ r = .wait ∨ r = .faulted → ∃ u, exec (.hello seq f ns) s = .next u ∧
          u.pair.take = some .active ∧ u.sys.phase = .negotiating) ∧
        (compatible → r = .negotiate →
          (f.lastClaim.toNat < p.lastClaim.toNat ∨ (p.lastClaim = 0 ∧ f.lastClaim = 0 ∧ unitBit s = 1) →
            ∃ u, exec (.hello seq f ns) s = .next u ∧ u.pair.take = some .active) ∧
          (p.lastClaim.toNat < f.lastClaim.toNat ∨ (p.lastClaim = 0 ∧ f.lastClaim = 0 ∧ unitBit s ≠ 1) →
            ∃ u, exec (.hello seq f ns) s = .next u ∧ u.pair.role = .standby))) ∧
      (p.role = .active → p.demoting = false → compatible → holdsClaim r = true → p.claim.toNat < f.lastClaim.toNat →
        (∀ x ∈ s.laneA.journal ++ s.laneB.journal, x.err = false) → ∃ u, exec (.hello seq f ns) s = .next u ∧
          u.pair.demoting = true ∧ u.pair.withdrawing = true ∧ u.pair.role = .active ∧ ∀ l t, u.cycle l t = none) ∧
      (p.role = .alone → compatible → holdsClaim r = false → ∃ u, exec (.hello seq f ns) s = .next u ∧ u.pair.role = .active ∧
        u.pair.claim = p.claim)) ∧
    (∀ f r, Role.ofCode f.role.toNat = some r → inOrder → p.role = .standby →
      (p.utDue = none → ∃ u, exec (.heartbeat seq f) s = .next u ∧ u.pair.present = true ∧ u.pair.missing = 0 ∧ u.pair.pclaim = f.claim ∧
        u.pair.prole = r ∧ u.pair.pmirror = f.mirror.toNat % 4 ∧ u.pair.rxSeq = some seq ∧ u.pair.role = .standby ∧
        u.seq.ut = s.seq.ut ∧ u.pair.mirror = p.mirror) ∧
      (∀ b, p.utDue = some b → holdsClaim r = true → ∃ u, exec (.heartbeat seq f) s = .next u ∧
        u.seq.ut = f.utime + BitVec.ofNat 72 (p.delay / 1000) ∧ u.pair.utDue = none) ∧
      (∀ b, p.utDue = some b → holdsClaim r = false → ∃ u, exec (.heartbeat seq f) s = .next u ∧
        u.seq.ut = s.seq.ut ∧ u.pair.utDue = some b)) ∧
    (fromActive s = false → (∀ last recs tr, exec (.delta seq last recs tr) s = discarded) ∧
      (∀ a ws, exec (.resync seq a ws) s = discarded) ∧ (∀ a, exec (.lag seq a) s = discarded) ∧
      ∀ tok, exec (.hand seq tok) s = discarded) ∧
    (fromActive s = true → p.role ≠ .standby → (∀ last recs tr, exec (.delta seq last recs tr) s = noted) ∧
      (∀ a ws, exec (.resync seq a ws) s = noted) ∧ (∀ a, exec (.lag seq a) s = noted) ∧ ∀ tok, exec (.hand seq tok) s = noted) ∧
    (fromActive s = true → p.role = .standby →
      (∀ recs, p.mirror = .mirrored → inOrder → exec (.delta seq false recs none) s =
        .next { s with pair := { p with rxSeq := some seq, rxDelta := p.rxDelta ++ recs } }) ∧
      (∀ recs tr, p.mirror = .mirrored → inOrder → p.rxDeltaOk = true →
        ((p.rxDelta ++ recs).length = tr.records.toNat → ∃ u, exec (.delta seq true recs (some tr)) s = .next u ∧ u.pair.dseq = seq ∧
          u.pair.rxDelta = [] ∧ u.pair.mirror = .mirrored ∧ u.seq.stamp = s.seq.stamp + 1 ∧
          ∀ h : tr.task.toNat < 16, u.pair.mtasks[tr.task.toNat] = some tr) ∧
        ((p.rxDelta ++ recs).length ≠ tr.records.toNat → ∃ u, exec (.delta seq true recs (some tr)) s = .next u ∧ u.pair.mirror = .lag ∧
          u.pair.dseq = p.dseq ∧ u.laneA = s.laneA ∧ u.laneB = s.laneB)) ∧
      (∀ recs q, p.mirror = .mirrored → p.rxSeq = some q → seq ≠ q + 1 → ∃ u,
        exec (.delta seq false recs none) s = .next u ∧ u.pair.mirror = .lag ∧ u.pair.lags = sat16 p.lags 1 ∧ u.laneA = s.laneA) ∧
      (∀ start ws rest, p.mirror = .resync → inOrder → p.resyncLeft = some (start.toNat :: rest) →
        (mirroredWords s).head? ≠ some start.toNat → (∀ l t, s.cycle l t = none) → ∃ u, exec (.resync seq start ws) s = .next u ∧
          u.pair.mirror = .resync ∧ u.pair.resyncLeft = some ((start.toNat :: rest).drop ws.length) ∧
          u.pair.resyncSent = p.resyncSent + ws.length ∧ u.seq.stamp = s.seq.stamp + 1) ∧
      (∀ first, p.mirror = .mirrored → ∃ u, exec (.lag seq first) s = .next u ∧ u.pair.mirror = .lag ∧
        u.pair.lagSeen = true ∧ u.pair.rxSeq = some seq) ∧
      (∀ tok, p.mirror = .resync → inOrder → p.resyncLeft = some [] → ∃ u, exec (.hand seq tok) s = .next u ∧
        u.pair.mirror = .mirrored ∧ u.pair.dseq = tok.dseq ∧ u.pair.role = .standby) ∧
      (∀ tok, p.mirror = .mirrored → inOrder → tok.dseq = p.dseq → p.rxDelta = [] →
        ∃ u, exec (.hand seq tok) s = .next u ∧ u.pair.role = .handIn ∧ u.pair.take = some .swap) ∧
      (∀ tok, p.mirror = .mirrored → tok.dseq ≠ p.dseq → ∃ u, exec (.hand seq tok) s = .next u ∧
        u.pair.role = .standby ∧ u.pair.txQueue = p.txQueue ++ [.abort 1])) ∧
    (∀ claim d, fromStandby s = true ∨ p.prole = .active →
      (p.role = .handOut → p.handSent = true → ∃ u, exec (.confirm seq claim d) s = .next u ∧ u.pair.role = .standby ∧
        u.pair.mirror = .mirrored ∧ u.pair.withdrawing = true ∧ u.pair.claim = p.claim ∧ u.pair.prole = .active ∧ u.pair.dseq = d ∧
        u.pair.swaps = sat16 p.swaps 1 ∧ claim.toNat / 2 ≤ u.pair.high.toNat) ∧
      (p.role ≠ .handOut → ∃ u, exec (.confirm seq claim d) s = .next u ∧ u.pair.role = p.role ∧ u.pair.prole = .active ∧
        u.pair.rxSeq = some seq ∧ claim.toNat / 2 ≤ u.pair.high.toNat)) ∧
    (∀ claim d, fromStandby s = false → p.prole ≠ .active → exec (.confirm seq claim d) s = discarded) ∧
    (∀ reason, (p.role = .handOut → ∃ u, exec (.abort seq reason) s = .next u ∧ u.pair.role = .active ∧ u.pair.swapRefused = true) ∧
      (p.role = .handIn → ∃ u, exec (.abort seq reason) s = .next u ∧ u.pair.role = .standby ∧ u.pair.take = none ∧
        u.pair.swapRefused = true) ∧
      (p.role ≠ .handOut → p.role ≠ .handIn → ∃ u, exec (.abort seq reason) s = .next u ∧ u.pair.role = p.role ∧
        u.pair.swapRefused = true)) ∧
    (∀ cls task code, (p.role = .standby → p.mirror = .mirrored → p.take = none → inOrder → ∃ u, exec (.fault seq cls task code) s = .next u ∧
        u.pair.take = some .takeover ∧ u.pair.prole = .faulted) ∧
      (p.role = .handOut → ∃ u, exec (.fault seq cls task code) s = .next u ∧ u.pair.role = .active ∧
        u.pair.txQueue = p.txQueue ++ [.abort 4]) ∧
      (p.role = .active → exec (.fault seq cls task code) s = .next { s with pair := { p with rxSeq := some seq, prole := .faulted } })) ∧
    (p.claim = 0 → p.role = .standby ∨ p.role = .wait ∨ p.role = .faulted → resetUnderWay s = false →
      ∃ u, exec (.resetReq seq 0x6A52) s = .next u ∧ u.sys.cause = 6 ∧ u.sys.phase = .entered) ∧
    (p.claim ≠ 0 → ∃ u, exec (.resetReq seq 0x6A52) s = .next u ∧ u.sys = s.sys ∧ u.laneA = s.laneA) ∧
    (∀ key, key ≠ 0x6A52 → exec (.resetReq seq key) s = discarded) ∧
    (∀ origin, fromStandby s = true →
      (p.role = .active → swapRefusal s = 0 → ∃ u, exec (.swapReq seq origin) s = .next u ∧ u.pair.role = .handOut) ∧
      (p.role ≠ .standby → swapRefusal s ≠ 0 → ∃ u, exec (.swapReq seq origin) s = .next u ∧ u.pair.swapRefused = true ∧
        u.pair.role = p.role) ∧
      (p.role = .standby → exec (.swapReq seq origin) s = .next (takeSeq s seq false))) ∧
    (∀ origin, fromStandby s = false → exec (.swapReq seq origin) s = discarded)

/-! ### The field die and the links to it (R20-R23, R332, R333, R374-R395) -/

/-- R22, R23, R332, R333, R338, R382, R388-R393, R395, R553, R557, R569: the die-to-die link and the claim wire. Every frame takes the next number and
leaves as the bytes of R391 and R392; a repeat is discarded and counted, and an accepted frame makes a STATUS frame due; COMMAND and HEARTBEAT frames
carry claim, SAFE_REQ and outputs, and only RELEASE in a COMMAND frame with a
claim ends silence; a reset frame, a loaded firmware and the silence timer make the field die silent; a STATUS frame sets the FLD ports
and lets a claim go; a claim wire frame is taken where START and CRC are right. While a recovery lasts, or at a part that hands over, what
R553 lists as detected is a unit fault; under FIELDTEST the claim wire has neither driver nor input stage.
The model's choices in it: log entries 47, 85, 86, 87, 90, 97, 105, 106. -/
def Obligations.FieldLinks : Prop :=
  ∀ (s : State) (seq : W16),
    let d := s.fd
    let fresh := d.rxSeq = none ∨ d.rxSeq = some (seq - 1)
    let again := { s with fd := { d with discarded := sat16 d.discarded 1 } }
    let quiet := s.asy.recovery = false ∧ handsOver s = false
    let leaves := fun (f : LogicFrame) => s.fld.unacked ++ [(s.fld.txSeq, f)]
    exec .d2dHeartbeatTimer s = .next { s with fld := { s.fld with hbDue := true } } ∧
    (∀ w, s.fld.waiting = some w →
      let f := LogicFrame.command ⟨s.pair.claim, w.out, w.stamp, callsSafe s, w.release || s.fld.releaseNext⟩
      exec .d2dFrameSend s = .next { s with fld := { s.fld with
        sent := some (s.fld.txSeq, f), sentBytes := logicBytes s.fld.txSeq f, unacked := leaves f
        txSeq := s.fld.txSeq + 1, hbDue := false, waiting := none, releaseNext := false } }) ∧
    (s.fld.waiting = none → s.fld.hbDue = true →
      let f := LogicFrame.heartbeat ⟨s.pair.claim, s.fld.out, s.fld.stamp, callsSafe s, false⟩
      exec .d2dFrameSend s = .next { s with fld := { s.fld with
        sent := some (s.fld.txSeq, f), sentBytes := logicBytes s.fld.txSeq f, unacked := leaves f
        txSeq := s.fld.txSeq + 1, hbDue := false } }) ∧
    (s.fld.waiting = none → s.fld.hbDue = false → s.fld.configDue = true → ∃ u, exec .d2dFrameSend s = .next u ∧
      u.fld.sent = some (s.fld.txSeq, .config (.expert (BitVec.ofNat 7 s.fld.pulsePer) (BitVec.ofNat 6 s.fld.openMa))) ∧
      u.fld.txSeq = s.fld.txSeq + 1 ∧ u.fld.configDue = false ∧ u.fd = d ∧ u.pair = s.pair) ∧
    (s.fld.waiting = none → s.fld.hbDue = false → s.fld.configDue = false → exec .d2dFrameSend s = .next s) ∧
    (∀ (type flags : Nat) (q : W16) (pl : List Byte), type < 256 → flags < 256 → pl.length < 65536 →
      let y := d2dFrame type flags q pl
      y.length = pl.length + 12 ∧ y.take 2 = [BitVec.ofNat 8 type, BitVec.ofNat 8 flags] ∧ (y.drop 2).take 2 = leBytes 2 q.toNat ∧
        (y.drop 4).take 2 = leBytes 2 pl.length ∧ (y.drop 8).take pl.length = pl ∧
        y.drop (pl.length + 8) = leBytes 4 (crc32c (y.take (pl.length + 8))).toNat) ∧
    (∀ c q, logicBytes q (.command c) = d2dFrame 1 (bit c.safeReq + 2 * bit c.release) q (commandPayload c) ∧
      logicBytes q (.heartbeat c) = d2dFrame 2 (bit c.safeReq + 2 * bit c.release) q (commandPayload c) ∧
      (commandPayload c).length = 12) ∧
    (∀ c p q, logicBytes q .reset = d2dFrame 3 0 q [] ∧ logicBytes q (.load p) = d2dFrame 4 0 q (d2dPayload p) ∧
      (∃ b, logicBytes q (.config c) = d2dFrame 5 0 q b ∧ b.length % 4 = 0 ∧ b.length ≤ 1024) ∧
      (d2dPayload p).length % 4 = 0 ∧ (d2dPayload p).length ≤ 1024 ∧ (p.length % 4 = 0 → p.length ≤ 1024 → d2dPayload p = p)) ∧
    (∀ p, (statusBytes p).length = 24) ∧
    (d.rxSeq = some seq → (∀ f, exec (.fieldCommandFrame seq f) s = .next again ∧ exec (.fieldHeartbeatFrame seq f) s = .next again) ∧
      exec (.fieldResetFrame seq) s = .next (endTogether again) ∧ (∀ b h, exec (.fieldLoadFrame seq b h) s = .next again) ∧
      ∀ c, exec (.fieldConfigFrame seq c) s = .next again) ∧
    (fresh →
      (∀ f, ∃ u, exec (.fieldCommandFrame seq f) s = .next u ∧ u.fd.rxSeq = some seq ∧ u.fd.statusDue = true ∧ u.fd.claim = f.claim ∧
        u.fd.safeReq = f.safeReq ∧
        (∀ i : Chan, u.fd.ch[i].cmd = f.out.getLsbD i.val) ∧ u.fld.latchRel = 0 ∧
        (f.release = true → f.claim ≠ 0 → u.fd.silent = false ∧ u.fd.released = true) ∧
        (f.release = false ∨ f.claim = 0 → u.fd.silent = d.silent ∧ u.fd.released = d.released) ∧
        u.fd.stage = stageOfClaims u.fd.claim (u.fd.silent || u.fd.safeReq) u.fd.cwValid u.fd.cwClaim u.fd.cwSilent ∧
        (quiet → u.pair = s.pair)) ∧
      (∀ f, ∃ u, exec (.fieldHeartbeatFrame seq f) s = .next u ∧ u.fd.rxSeq = some seq ∧ u.fd.claim = f.claim ∧
        u.fd.safeReq = f.safeReq ∧ (∀ i : Chan, u.fd.ch[i].cmd = f.out.getLsbD i.val) ∧ u.fd.silent = d.silent ∧
        u.fd.statusDue = true ∧ (quiet → u.fld = s.fld)) ∧
      (∃ u, exec (.fieldResetFrame seq) s = .next u ∧ u.fd.silent = true ∧ u.fd.stage ≠ .drive ∧ u.fd.claim = d.claim) ∧
      (∀ h, ∃ u, exec (.fieldLoadFrame seq true h) s = .next u ∧ u.fd.loaded = h ∧ u.fd.configured = false ∧ u.fd.silent = true ∧
        u.fld.fwOk = h ∧ ∀ i : Chan, u.fd.ch[i].driver = false) ∧
      (∀ recs ms frames, ∃ u, exec (.fieldConfigFrame seq (.records recs ms frames)) s = .next u ∧ u.fd.configured = true ∧
        u.fd.silenceMs = ms ∧ u.fd.frames = frames ∧ ∀ i : Chan, u.fd.ch[i].cfg = recs.getD i.val FieldRec.init) ∧
      (∀ per ma, ∃ u, exec (.fieldConfigFrame seq (.expert per ma)) s = .next u ∧ u.fd.pulsePer = per.toNat ∧ u.fd.openMa = ma.toNat ∧
        u.fd.ch = d.ch)) ∧
    (d.loaded = true ∨ d.statusDue = true → ∃ u f, exec .statusFrameSend s = .next u ∧ u.fd.statusSent = some (d.txSeq, f) ∧
      u.fd.txSeq = d.txSeq + 1 ∧ u.fd.statusDue = false ∧ u.fd.statusBytes = d2dFrame 8 0 d.txSeq (statusBytes f) ∧ f.temp = d.temp ∧
      (∀ q, d.rxSeq = some q → f.ackSeq = q) ∧ f.stage = BitVec.ofNat 2 d.stage.code ∧ f.silent = d.silent ∧ f.partnerClaim = d.cwClaim ∧
        f.vfield = d.vfield) ∧
    (d.loaded = false → d.statusDue = false → exec .statusFrameSend s = .next s) ∧
    (∀ f, s.fld.rxSeq = some (seq - 1) ∨ s.fld.rxSeq = none → ∃ u, exec (.statusFrame seq f) s = .next u ∧ u.fld.rxSeq = some seq ∧
      u.fld.inp = f.inp ∧ u.fld.diag = f.diag ∧ u.fld.rb = f.rb ∧ u.fld.stage = f.stage.toNat ∧ u.fld.errFd = f.discarded.toNat ∧
      u.fld.vfield = f.vfield ∧ u.fld.link = true ∧ u.fd = d ∧ (f.stage = 3 → u.pair.role = .faulted) ∧
      (s.pair.withdrawing = true → f.stage = 0 ∨ f.stage = 2 → u.pair.claim = 0)) ∧
    (quiet → (∀ f, s.fld.rxSeq = some seq →
        exec (.statusFrame seq f) s = .next { s with fld := { s.fld with errRx := sat16 s.fld.errRx 1 } }) ∧
      ∀ w, exec (.d2dFrameDiscard .toLogic w) s = .next { s with fld := { s.fld with errRx := sat16 s.fld.errRx 1 } }) ∧
    (¬ quiet → (∀ f, s.fld.rxSeq = some seq → ∃ u, exec (.statusFrame seq f) s = .next u ∧ u.pair.role = .faulted) ∧
      (∀ w, ∃ u, exec (.d2dFrameDiscard .toLogic w) s = .next u ∧ u.pair.role = .faulted) ∧
      ∃ u, exec .logicSilenceExpiry s = .next u ∧ u.pair.role = .faulted) ∧
    (s.fld.link = false → s.fld.fwOk = false → exec .fieldStatusTimeout s = .next s) ∧
    (s.fld.link = true ∨ s.fld.fwOk = true → ∃ u, exec .fieldStatusTimeout s = .next u ∧ u.fld.link = false ∧ u.pair.role = .faulted) ∧
    (∃ u, exec .logicSilenceExpiry s = .next u ∧ u.fd.silent = true ∧ u.fd.stage ≠ .drive ∧ u.fd.claim = d.claim ∧
      (quiet → u.pair = s.pair)) ∧
    (∀ w, exec (.d2dFrameDiscard .toField w) s = .next again) ∧
    (d.loopback = false →
      exec .claimWireFrameSend s = .next { s with fd := { d with cwSent := some (wireFrame d.claim d.silent d.stage.code) } }) ∧
    (d.loopback = true → exec .claimWireFrameSend s = .next s ∧ ∀ bits, exec (.claimWireFrame bits) s = .next s) ∧
    (∀ claim b n, n < 4 → wireValid (wireFrame claim b n) = true ∧ (wireFrame claim b n).extractLsb' 12 32 = claim ∧
      (wireFrame claim b n).getLsbD 11 = b ∧ ((wireFrame claim b n).extractLsb' 8 2).toNat = n) ∧
    (∀ bits, wireValid bits = false → exec (.claimWireFrame bits) s = .next s) ∧
    (∀ bits, wireValid bits = true → d.loopback = false → ∃ u, exec (.claimWireFrame bits) s = .next u ∧ u.fd.cwValid = true ∧
      u.fd.cwClaim = bits.extractLsb' 12 32 ∧ u.pair.cwOk = true ∧ u.pair.cwClaim = bits.extractLsb' 12 32 ∧
      u.pair.cwSilent = bits.getLsbD 11 ∧ u.fd.stage = stageOfClaims d.claim (d.silent || d.safeReq) true u.fd.cwClaim u.fd.cwSilent) ∧
    (∃ u, exec .claimWireLoss s = .next u ∧ u.fd.cwValid = false ∧ u.pair.cwOk = false) ∧
    (∃ u, exec (.fldRelease false) s = .next u ∧ u.fld = { s.fld with releaseNext := true } ∧ u.fd = d) ∧
    (∀ hi m, exec (.fldLatchRelease hi m false) s = .next { openBlockGate s (if hi = true then 0x120B else 0x120A) with fld := { s.fld with latchRel := s.fld.latchRel |||
      ((if hi = true then m ++ 0#16 else m.setWidth 32) &&& chanMask d (fun c => c.latched)) } })

/-- R374, R376-R378, R380-R387, R569: the channels of the field die. Inputs switch at their thresholds, a driver is on only as R374 says, and
pulses, pull tests, thermal shutdowns and the diagnostics set their flags.
The model's choices in it: log entries 47, 88, 89, 91, 105. -/
def Obligations.FieldChannels : Prop :=
  ∀ (s : State) (ch : Chan),
    let d := s.fd
    let x := d.ch[ch]
    (∀ t : FdState, let u := settleField t
      u.stage = stageOfClaims t.claim (t.silent || t.safeReq) t.cwValid t.cwClaim t.cwSilent ∧
      ∀ i : Chan, let y := u.ch[i]
        y.driver = true → t.configured = true ∧ t.loopback = false ∧ t.heldOff = false ∧ 2 ≤ y.cfg.mode.toNat ∧ y.thermal = false ∧
          y.thermalLatch = false ∧ u.stage ≠ .released ∧ (u.stage = .safe → y.cfg.safeOn = true) ∧
          (u.stage = .drive → (if y.latched = true then y.cfg.safeOn else y.cmd) = true)) ∧
    (∀ mv ma, d.loaded = true → d.configured = true → d.loopback = false → ∃ u, exec (.inputSample ⟨mv, ma⟩) s = .next u ∧
      u.fd.now = d.now + 1 ∧ u.fd.stage = d.stage ∧ (s.asy.recovery = false → handsOver s = false → u.laneA = s.laneA ∧ u.fld = s.fld) ∧
      let v := mv.getD ch.val 0
      let y := u.fd.ch[ch]
      let z := { x with current := ma.getD ch.val 0 }
      (x.cfg.mode = 1 → (2000 + 250 * x.cfg.on.toNat ≤ v → y.raw = true) ∧
        (v < 2000 + 250 * x.cfg.on.toNat → v ≤ 2000 + 250 * x.cfg.off.toNat → y.raw = false) ∧
        (v < 2000 + 250 * x.cfg.on.toNat → 2000 + 250 * x.cfg.off.toNat < v → y.raw = x.raw) ∧
        (y.raw = x.filt → y.filt = x.filt) ∧ (x.cfg.filter = 0 → y.filt = y.raw) ∧ y.current = BitVec.ofNat 16 (v / 30)) ∧
      (x.cfg.mode = 3 → y = { z with rb := if 12000 ≤ v then true else if v ≤ 4000 then false else x.rb }) ∧
      (x.cfg.mode = 2 → y = z) ∧ (x.cfg.mode = 0 → y = x)) ∧
    (∀ mv ma, d.loaded = false ∨ d.configured = false ∨ d.loopback = true →
      exec (.inputSample ⟨mv, ma⟩) s = .next { s with fd := { d with now := d.now + 1 } }) ∧
    (∀ mv temp, ∃ u, exec (.vfieldSample ⟨mv, temp⟩) s = .next u ∧ u.fd.temp = temp ∧
      u.fd.vfield = BitVec.ofNat 16 (min 0xFFFF (mv / 10)) ∧
      (mv < 16000 → 100 ≤ d.vfBelow → u.fd.vfLow = true) ∧ (16500 < mv → 100 ≤ d.vfAbove → u.fd.vfLow = false) ∧
      (16000 ≤ mv → mv ≤ 16500 → u.fd.vfLow = d.vfLow ∧ u.fd.vfBelow = 0 ∧ u.fd.vfAbove = 0) ∧ u.fd.ch = d.ch) ∧
    (∀ mv, disagrees x mv = true → x.cfg.mode = 3 → d.loopback = false → x.pulse = none → x.pull = false → inSettle d x = false → ∃ u,
      exec (.readbackMismatch ch mv) s = .next u ∧ u.fd.ch[ch].mismatch = true ∧ u.fd.ch[ch].latched = true ∧
      (x.cfg.safeOn = false → u.fd.stage = .drive → u.fd.ch[ch].driver = false)) ∧
    (∀ mv, (if x.driver = true then 12000 ≤ mv else mv ≤ 4000) → exec (.readbackMismatch ch mv) s = .next s) ∧
    (x.cfg.mode = 3 → d.stage = .drive → d.loopback = false → x.latched = false → x.thermalLatch = false →
      (partnerDrives d = false → x.thermal = false → inSettle d x = false → inInrush d x = false →
        (x.driver = true → ∃ u, exec (.testPulseSlot ch) s = .next u ∧ u.fd.ch[ch] = { x with pulsePassed := false, pulse := some .dark }) ∧
        (x.driver = false → ∃ u, exec (.testPulseSlot ch) s = .next u ∧
          u.fd.ch[ch] = { x with pulsePassed := false, pulse := some .bright, onAt := some d.now })) ∧
      (partnerDrives d = true → x.missed ≠ 9 → ∃ u, exec (.testPulseSlot ch) s = .next u ∧
        u.fd.ch[ch] = { x with pulsePassed := false, missed := x.missed + 1 }) ∧
      (partnerDrives d = true → x.missed = 9 → ∃ u, exec (.testPulseSlot ch) s = .next u ∧ u.fd.ch[ch].pulseFail = true ∧
        u.fd.ch[ch].latched = true)) ∧
    (x.cfg.mode = 3 → d.stage = .drive → x.latched = true ∨ x.thermalLatch = true → ∃ u, exec (.testPulseSlot ch) s = .next u ∧
      u.fd.ch[ch] = { x with pulsePassed := false }) ∧
    (x.cfg.mode ≠ 3 ∨ d.stage ≠ .drive ∨ d.loopback = true →
      exec (.testPulseSlot ch) s = .next (s.modChan ch (fun y => { y with pulsePassed := false }))) ∧
    (∀ mv, (x.pulse = some .dark → mv ≤ 4000 → ∃ u, exec (.testPulseEnd ch mv) s = .next u ∧ u.fd.ch[ch] =
        { x with pulse := none, missed := 0, pulsePassed := false, changedAt := some d.now, onAt := some d.now }) ∧
      (x.pulse = some .bright → 12000 ≤ mv → ∃ u, exec (.testPulseEnd ch mv) s = .next u ∧ u.fd.ch[ch] =
        { x with pulse := none, missed := 0, pulsePassed := true, changedAt := some d.now }) ∧
      (x.pulse = some .dark → 4000 < mv → ∃ u, exec (.testPulseEnd ch mv) s = .next u ∧ u.fd.ch[ch].pulseFail = true ∧
        u.fd.ch[ch].latched = true ∧ u.fd.ch[ch].pulse = none) ∧
      (x.pulse = some .bright → mv < 12000 → ∃ u, exec (.testPulseEnd ch mv) s = .next u ∧ u.fd.ch[ch].pulseFail = true ∧
        u.fd.ch[ch].latched = true ∧ u.fd.ch[ch].pulse = none) ∧
      (x.pulse = none → exec (.testPulseEnd ch mv) s = .next s)) ∧
    (x.cfg.pullTest = true → d.loopback = false → x.cfg.mode = 2 ∨ x.cfg.mode = 3 ∧ x.pulsePassed = true → x.driver = false →
      partnerDrives d = false →
      ∃ u, exec (.pullTestStart ch) s = .next u ∧ u.fd.ch[ch] = { x with pull := true }) ∧
    (x.cfg.pullTest = false ∨ d.loopback = true → exec (.pullTestStart ch) s = .next s) ∧
    (∀ mv, x.pull = true → ∃ u, exec (.pullTestEnd ch mv) s = .next u ∧
      u.fd.ch[ch] = { x with pull := false, pulsePassed := false, openOff := x.openOff || decide (4000 < mv) }) ∧
    (∀ ma, 2 ≤ x.cfg.mode.toNat → x.driver = true ∨ x.pulse = some .bright →
      ∃ u, exec (.thermalShutdown ch ma) s = .next u ∧ u.fd.ch[ch].thermal = true ∧ u.fd.ch[ch].overtemp = true ∧
        u.fd.ch[ch].driver = false ∧ u.fd.ch[ch].current = ma) ∧
    (∀ ma, 2 ≤ x.cfg.mode.toNat → x.driver = true →
      (inInrush d x = false → ∃ u, exec (.overload ch ma) s = .next u ∧ u.fd.ch[ch] = { x with overload := true, current := ma }) ∧
      (inInrush d x = true → exec (.overload ch ma) s = .next s) ∧
      (inInrush d x = false → ma.toNat < d.openMa → ∃ u, exec (.openOn ch ma) s = .next u ∧
        u.fd.ch[ch] = { x with openOn := true, current := ma })) ∧
    (∀ ma, x.driver = false → (x.pulse ≠ some .bright → exec (.thermalShutdown ch ma) s = .next s) ∧ exec (.overload ch ma) s = .next s ∧
      exec (.openOn ch ma) s = .next s) ∧
    (∃ u, exec (.thermalRestart ch) s = .next u ∧ u.fd.ch[ch].thermal = false)

/-! ### The message buses, the blocks and the host port -/

/-- R397, R398, R401, R402, R404-R408, R411, R413-R419: a message bus controller. The PENDING mailbox that would win is sent; a frame ends SENT,
goes back to PENDING, as a lost arbitration does, or ends as its lifetime, an abort or RETRY says; errors move the counters and the state; a held
bus-off waits for RELEASE; the FIFO is popped in order; a timing set outside R401 is denied; ERRCODE clears when read, and TIME_LO latches TIME_HI.
The model's choices in it: log entries 13, 36, 66, 67, 68, 126. -/
def Obligations.MessageBuses : Prop :=
  ∀ (s : State) (n : Bus), Memory.wf s.msg = true →
    let m := s.mb[n]
    let port := fun (off : Nat) => openBlockGate s (mbPort n off)
    (∀ i : Fin 64, onBus m = true → m.listen = false → m.ard = false → m.sending = none → m.newTiming = none → mbxState s n i.val = 1 →
      (∀ j : Fin 64, j ≠ i → mbxState s n j.val ≠ 1) → ∃ u f t, exec (.arbitrationStart n) s = .next u ∧
        u.mb[n] = { m with sending := some (i, f, t), ending := .none } ∧ f = mbxFrame s n i.val ∧ mbxState u n i.val = 2) ∧
    (onBus m = false → exec (.arbitrationStart n) s = .next s ∧ (∀ e, exec (.canError n e) s = .next s) ∧
      (∀ f t w, exec (.canFrameReceived n f ⟨t, w⟩) s = .next s) ∧ exec (.protocolException n) s = .next s) ∧
    (∀ i f t delay, m.sending = some (i, f, t) → f.brs = false ∨ f.fdf = false ∨ delay ≠ 255 → m.newTiming = none → onBus m = true →
      ∃ u, exec (.canFrameSent n delay) s = .next u ∧ (s.obt.segs[n] = [] → mbxState u n i.val = 3) ∧ (u.mb[n]).sending = none ∧
        (f.brs = true → f.fdf = true → (u.mb[n]).tdc = delay ∧ (u.mb[n]).ssp = delay.toNat + tdcOffsetOf m) ∧
        (u.mb[n]).txDone.getLsbD i.val = true ∧ (u.mb[n]).lifeOn.getLsbD i.val = false ∧ (u.mb[n]).tec = m.tec - 1 ∧
        (u.mb[n]).noAck = 0 ∧ (u.mb[n]).phase = (if m.tec - 1 < 128 ∧ m.rec_ < 128 then .active else .passive)) ∧
    (∀ i f t, m.sending = some (i, f, t) → f.brs = true → f.fdf = true → m.newTiming = none → onBus m = true → m.ard = false →
      m.listen = false → m.tec < 240 → ∃ u, exec (.canFrameSent n 255) s = .next u ∧ (u.mb[n]).errCode = 5 ∧ (u.mb[n]).errData = true ∧
        (u.mb[n]).tec = m.tec + 8 ∧ (u.mb[n]).sending = none) ∧
    (m.sending = none → ∀ delay, exec (.canFrameSent n delay) s = .next s) ∧
    (∀ f t w j g t0, onBus m = true → m.ard = false → m.listen = false → m.sending = some (j, g, t0) → m.ending = .none →
      ∃ u, exec (.canFrameReceived n f ⟨t, w⟩) s = .next u ∧ mbxState u n j.val = 1 ∧ (u.mb[n]).sending = none ∧ (u.mb[n]).tec = m.tec) ∧
    (∀ f t w, onBus m = true → m.ard = false → m.sending = none → m.rec_ = 0 → ingressMatch s n f = none → serviceBus s n = false →
      (∀ k, firstFilter s n w f = some (k, false) → m.rxCount < 128 → ∃ u, exec (.canFrameReceived n f ⟨t, w⟩) s = .next u ∧
        (u.mb[n]).rxCount = m.rxCount + 1 ∧ (u.mb[n]).rxHead = m.rxHead ∧ (u.mb[n]).rxOvrCount = m.rxOvrCount) ∧
      (∀ k, firstFilter s n w f = some (k, false) → m.rxCount = 128 → ∃ u, exec (.canFrameReceived n f ⟨t, w⟩) s = .next u ∧
        (u.mb[n]).rxCount = 128 ∧ (u.mb[n]).rxOvr = true ∧ (u.mb[n]).rxOvrCount = sat16 m.rxOvrCount 1 ∧ u.msg = s.msg) ∧
      (firstFilter s n w f = none ∨ (∃ k, firstFilter s n w f = some (k, true)) → m.newTiming = none → m.tec < 128 → m.phase = .active →
        exec (.canFrameReceived n f ⟨t, w⟩) s = .next s)) ∧
    (∀ e, onBus m = true → m.ard = false → m.listen = false → m.sending = none → m.newTiming = none →
      m.tec + 8 + 8 * e.moreDominant < 256 → ∃ u, exec (.canError n e) s = .next u ∧ (u.mb[n]).errCode = errorCode e.kind ∧
        (u.mb[n]).errData = e.dataPhase ∧
        (e.transmitting = true → (u.mb[n]).rec_ = m.rec_ ∧ (u.mb[n]).tec = m.tec + 8 * e.moreDominant +
          if e.kind = .stuff ∧ e.arbitrationStuff = true ∨ e.kind = .ack ∧ m.phase = .passive ∧ e.passiveNoDominant = true then 0 else 8) ∧
        (e.transmitting = false → (u.mb[n]).tec = m.tec ∧ (u.mb[n]).rec_ = min 255 (m.rec_ + (if e.inFlag = true then 8 else 1) +
          (if e.dominantAfterFlag = true then 8 else 0) + 8 * e.moreDominant)) ∧
        (∀ v, e.delay = some v → e.transmitting = true → (u.mb[n]).tdc = v) ∧
        ((u.mb[n]).phase = .active ↔ (u.mb[n]).tec < 128 ∧ (u.mb[n]).rec_ < 128)) ∧
    (∀ e, onBus m = true → m.ard = false → m.listen = false → m.sending = none → e.transmitting = true → e.kind ≠ .ack →
      e.kind ≠ .stuff → 248 ≤ m.tec →
      ∃ u, exec (.canError n e) s = .next u ∧ (u.mb[n]).tec = 256 ∧
        (m.hold = true → (u.mb[n]).phase = .busOff ∧ (u.mb[n]).held = true) ∧ (m.hold = false → (u.mb[n]).phase = .recovering)) ∧
    (onBus m = true → ∃ u, exec (.protocolException n) s = .next u ∧ (u.mb[n]).phase = .integrating ∧ (u.mb[n]).pxe = true ∧
      (u.mb[n]).sending = none ∧ (u.mb[n]).tec = m.tec ∧ (∀ t, m.newTiming = some t → (u.mb[n]).nom = t.1 ∧ (u.mb[n]).dat = t.2) ∧
      ∀ i f t, m.sending = some (i, f, t) → m.ending = .none → mbxState u n i.val = 1) ∧
    (m.phase = .integrating → ∃ u, exec (.busIntegrationEnd n) s = .next u ∧ (u.mb[n]).tec = m.tec ∧ (u.mb[n]).rec_ = m.rec_ ∧
      (u.mb[n]).phase = (if m.tec < 128 ∧ m.rec_ < 128 then .active else .passive)) ∧
    (m.phase ≠ .integrating → exec (.busIntegrationEnd n) s = .next s) ∧
    (m.phase = .recovering → ∃ u, exec (.busOffRecovery n) s = .next u ∧ (u.mb[n]).tec = 0 ∧ (u.mb[n]).rec_ = 0 ∧
      (u.mb[n]).phase = .active) ∧
    (m.phase ≠ .recovering → exec (.busOffRecovery n) s = .next s) ∧
    (∀ i : Fin 64, m.lifeOn.getLsbD i.val = true →
      (mbxState s n i.val = 1 → ∃ u, exec (.lifetimeExpiry n i) s = .next u ∧ mbxState u n i.val = 4 ∧
        (u.mb[n]).txDone.getLsbD i.val = true) ∧
      (mbxState s n i.val = 2 → m.ending = .none → exec (.lifetimeExpiry n i) s = .next (s.modMb n (fun x => { x with ending := .expired })))) ∧
    (m.ard = true → m.phase ≠ .disabled → ∃ u, exec (.ardDwellExpiry n) s = .next u ∧ (u.mb[n]).ardRun = [] ∧ (u.mb[n]).ard = true ∧
      (u.mb[n]).ardIdx = (match busRec s n with | some b => if m.ardIdx + 1 < b.rates.length then m.ardIdx + 1 else 0 | none => 0)) ∧
    (m.ard = false → exec (.ardDwellExpiry n) s = .next s) ∧
    (∀ (q : Fin 4) (mask : W16), q = 3 → egressBus s n = true →
      exec (.mbTxset n q mask false) s = .next ((port (8 + q.val)).modMb n (fun x => { x with mbxDenied := true })) ∧
      exec (.mbTxabort n q mask false) s = .next ((port (12 + q.val)).modMb n (fun x => { x with mbxDenied := true }))) ∧
    (∀ (q : Fin 4) (i : Fin 16), q ≠ 3 → let k := 16 * q.val + i.val
      (mbxState s n k ≠ 1 → mbxState s n k ≠ 2 → ∃ u, exec (.mbTxset n q (1#16 <<< i.val) false) s = .next u ∧ mbxState u n k = 1 ∧
        (u.mb[n]).lifeOn.getLsbD k = (mbxWord s n k 3 != 0)) ∧
      (mbxState s n k = 1 → ∃ u, exec (.mbTxabort n q (1#16 <<< i.val) false) s = .next u ∧ mbxState u n k = 5 ∧
        (u.mb[n]).txDone.getLsbD k = true) ∧
      (mbxState s n k = 2 → m.ending = .none → exec (.mbTxabort n q (1#16 <<< i.val) false) s =
        .next ((port (12 + q.val)).modMb n (fun x => { x with ending := .aborted })))) ∧
    (0 < m.rxCount → exec (.mbRxfPop n false) s =
      .next ((port 0x16).modMb n (fun x => { x with rxHead := (x.rxHead + 1) % 128, rxCount := x.rxCount - 1 }))) ∧
    (m.rxCount = 0 → exec (.mbRxfPop n false) s = .next (port 0x16)) ∧
    (m.ard = false → exec (.goActive n false) s = .next ((port 3).modMb n (fun x => { x with listen := false }))) ∧
    (m.ard = true → exec (.goActive n false) s = .next (port 3)) ∧
    (m.held = true → m.phase = .busOff → ∃ u, exec (.mbRelease n false) s = .next u ∧ (u.mb[n]).phase = .recovering ∧
      (u.mb[n]).held = false) ∧
    (m.held = false → exec (.mbRelease n false) s = .next (port 3)) ∧
    (∀ v : W16, expertGranted s (mbPort n 0x100) = true → let t := writtenTiming m v
      (timingValid t = false → exec (.mbTimingWrite n v false) s =
        .next ((port 0x100).modMb n (fun x => { x with timDenied := true, nbtWritten := true }))) ∧
      (timingValid t = true → ∃ u, exec (.mbTimingWrite n v false) s = .next u ∧ (u.mb[n]).nbt0 = v &&& 0xFF1F#16 ∧
        (u.mb[n]).tec = m.tec ∧ (u.mb[n]).rec_ = m.rec_ ∧
        (onBus m = false → (u.mb[n]).nom = t.1 ∧ (u.mb[n]).dat = t.2 ∧ (u.mb[n]).phase = m.phase) ∧
        (onBus m = true → m.sending.isSome = true → (u.mb[n]).newTiming = some t ∧ (u.mb[n]).nom = m.nom ∧ (u.mb[n]).phase = m.phase) ∧
        (onBus m = true → m.sending = none → (u.mb[n]).newTiming = some t ∧ (u.mb[n]).nom = m.nom ∧ (u.mb[n]).phase = m.phase ∨
          (u.mb[n]).nom = t.1 ∧ (u.mb[n]).dat = t.2 ∧ (u.mb[n]).phase = .integrating))) ∧
    (∃ u, exec (.mbErrcodeRead n false) s = .next u ∧ (u.mb[n]).errCode = 0 ∧ (u.mb[n]).stateChanged = false ∧
      (m.errCode < 256 → u.hf.portIn.toNat % 512 = m.errCode + 256 * bit m.errData) ∧ u.msg = s.msg) ∧
    (∃ u, exec (.mbTimeLoRead n false) s = .next u ∧ (u.mb[n]).timeHi = s.seq.ut.extractLsb' 16 16 ∧
      u.hf.portIn = s.seq.ut.setWidth 16 ∧ u.msg = s.msg) ∧
    (∀ e, egressBus s n = true → mbxState s n 48 ≠ 1 → mbxState s n 48 ≠ 2 → s.ing.queue[n] = [e] →
      ∃ u, exec (.egressMailboxLoad n) s = .next u ∧ u.ing.queue[n] = [] ∧ mbxState u n 48 = 1 ∧ u.mb = s.mb)

/-- R279, R424-R427, R430, R433-R437, R443, R438: blocks and the host port, with the states in which INGRESS_APPLICATION,
FRESHNESS_EXPIRY, INGRESS_SET_TIMEOUT, EGRESS_MAILBOX_LOAD, OBT_GAP_EXPIRY, HOST_READ, HOST_READ_STATUS, HOST_WRITE, HOST_BELL, HOST_FIN
and XSPI_UNSUPPORTED_COMMAND complete, and what they complete with. A complete reading enters the image as one event, its validity with
it; a stale block loses only its validity bit; an open set that times out is dropped and counted; the queued frame that would win goes
into the lowest free mailbox; the host port counts its transactions, reads, writes and bells only while it serves, and its seam holds
them while the root is held.
The model's choices in it: log entries 36, 54, 55, 69, 122. -/
def Obligations.BlocksAndHost : Prop :=
  ∀ (s : State),
    (∀ b, (∀ e ∈ s.ing.ready, e.block ≠ b) → exec (.ingressApplication b) s = .next s) ∧
    (∀ b e r rest, s.ing.ready = e :: rest → e.block = b → ingressRec s b = some r → s.sys.state = .running →
      (deliveryFull s = false → ∃ u v, exec (.ingressApplication b) s = .next u ∧ u = dispatchBoth v ∧
        ((∀ t, snapshotDue s t = false) → v.seq.stamp = s.seq.stamp + 1) ∧ u.ing.ready = rest ∧ (ingBlk u b).last = some s.seq.ut ∧
          (ingBlk u b).count = (ingBlk s b).count + 1 ∧
        (r.src ≠ 2 → (ingBlk u b).fresh = some s.seq.ut ∧ (ingBlk u b).valid = e.valid) ∧
        (r.src = 2 → (ingBlk u b).fresh = (ingBlk s b).fresh ∧ ∀ f, (ingBlk s b).fresh = some f →
          (ingBlk u b).valid = (e.valid && !stale s r f))) ∧
      (deliveryFull s = true → e.heldNoted = false → ∃ u, exec (.ingressApplication b) s = .next u ∧
        u.asy.holds = min 0x7FFF (s.asy.holds + 1) ∧ u.ing.ready = { e with heldNoted := true } :: rest ∧ u.laneA = s.laneA ∧
        u.seq = s.seq) ∧
      (deliveryFull s = true → e.heldNoted = true → exec (.ingressApplication b) s = .next s)) ∧
    (∀ b r f, ingressRec s b = some r → (ingBlk s b).fresh = some f →
      (r.fresh ≠ 0 → (ingBlk s b).valid = true → 1000 * r.fresh ≤ (s.seq.ut - f).toNat → s.sys.state = .running →
        ∃ u v, exec (.freshnessExpiry b) s = .next u ∧ u = dispatchBoth v ∧ ((∀ t, snapshotDue s t = false) → v.seq.stamp = s.seq.stamp + 1) ∧
          (ingBlk u b).valid = false ∧ (ingBlk u b).count = (ingBlk s b).count ∧ (ingBlk u b).fresh = some f ∧ u.ing.ready = s.ing.ready) ∧
      (r.fresh = 0 ∨ (ingBlk s b).valid = false ∨ (s.seq.ut - f).toNat < 1000 * r.fresh → exec (.freshnessExpiry b) s = .next s)) ∧
    (∀ b, (ingBlk s b).open_ = none → exec (.ingressSetTimeout b) s = .next s) ∧
    (∀ b, (ingBlk s b).open_ ≠ none → ∃ u, exec (.ingressSetTimeout b) s = .next u ∧ (ingBlk u b).open_ = none ∧
      u.ing.incomplete = sat16 s.ing.incomplete 1 ∧ u.ing.ready = s.ing.ready ∧ u.msg = s.msg) ∧
    (∀ (n : Bus) e, Memory.wf s.msg = true → egressBus s n = true → mbxState s n 48 ≠ 1 → mbxState s n 48 ≠ 2 →
      s.ing.queue[n] = [e] → ∃ u, exec (.egressMailboxLoad n) s = .next u ∧ u.ing.queue[n] = [] ∧ mbxState u n 48 = 1 ∧
        (48, e.block) ∈ u.ing.loaded[n] ∧ u.mb = s.mb) ∧
    (∀ n : Bus, s.ing.queue[n] = [] → exec (.egressMailboxLoad n) s = .next s) ∧
    (∀ n : Bus, exec (.obtGapExpiry n) s = .next { s with obt := { s.obt with rx := s.obt.rx.set n none } }) ∧
    (hostServes s = false → (∀ a len, exec (.hostRead a len) s = .next s) ∧ (∀ a bs, exec (.hostWrite a bs) s = .next s) ∧
      exec .hostReadStatus s = .next s ∧ (∀ c, exec (.xspiUnsupportedCommand c) s = .next s) ∧ ∀ m, exec (.hostBell m) s = .next s) ∧
    (hostServes s = true → s.clk.lock = false →
      let x := { s with host := { s.host with xcount := sat16 s.host.xcount 1 }, clk := { s.clk with gate := s.clk.gate.set 6 .open_ } }
      let waits := fun (h : HeldAccess) => Host.Outcome.next { x with seam := { s.seam with held := s.seam.held ++ [h] } }
      (∀ a len, exec (.hostRead a len) s = waits (.read a len)) ∧ (∀ a bs, exec (.hostWrite a bs) s = waits (.write a bs)) ∧
        exec .hostReadStatus s = waits .status ∧ ∀ m, exec (.hostBell m) s = waits (.bell m)) ∧
    (hostServes s = true → s.clk.lock = true →
      let x := { s with host := { s.host with xcount := sat16 s.host.xcount 1 }, clk := { s.clk with gate := s.clk.gate.set 6 .open_ } }
      (∀ a : W32, ∀ len, ∃ u, exec (.hostRead a len) s = .next u ∧ u.host.xcount = sat16 s.host.xcount 1 ∧
        u.host.lastRead = (List.range len).map (fun i => hostByte s (a.toNat + i)) ∧ u.msg = s.msg ∧
        (a.toNat + len ≤ 0x20000 → u.host.winRange = s.host.winRange ∧ u.host.winSeg = s.host.winSeg)) ∧
      exec .hostReadStatus s = .next { x with host := { x.host with
        lastRead := leBytes 1 (s.sys.state.code + 8 * bit (s.pair.claim != 0) + 16 * s.pair.role.code) } } ∧
      (∀ c : Byte, c ≠ 0xEE → c ≠ 0x12 → c ≠ 0x05 → exec (.xspiUnsupportedCommand c) s = .next { s with host := { s.host with errCmd := true } }) ∧
      (∀ (a : W32) (b0 b1 : Byte), Memory.wf s.msg = true → a.toNat < 0x8000 → a.toNat % 2 = 0 → 16 ≤ a.toNat % 4096 →
        (boxField s (a.toNat / 4096) 0 ≠ 1 → hostKind s (a.toNat / 4096) ≠ 2 → ∃ u, exec (.hostWrite a [b0, b1]) s = .next u ∧
          memGet u.msg (a.toNat / 2) = b1 ++ b0 ∧ (∀ x, x ≠ a.toNat / 2 → memGet u.msg x = memGet s.msg x) ∧
          u.host.xcount = sat16 s.host.xcount 1) ∧
        (boxField s (a.toNat / 4096) 0 = 1 → ∃ u, exec (.hostWrite a [b0, b1]) s = .next u ∧ u.host.errBusyWr = true ∧ u.msg = s.msg)) ∧
      (∀ a : W32, ∀ b0 b1, 0x20000 ≤ a.toNat → a.toNat < 0x28000 → ∃ u, exec (.hostWrite a [b0, b1]) s = .next u ∧
        u.host.winWrite = true ∧ u.msg = s.msg ∧ u.laneA = s.laneA ∧ u.laneB = s.laneB) ∧
      (∀ m : Fin 8, hostKind s m.val = 0 → boxField s m.val 0 ≠ 1 → Memory.wf s.msg = true → ∃ u,
        exec (.hostBell (1#8 <<< m.val)) s = .next u ∧ u.host.pend.getLsbD m.val = true ∧ boxField u m.val 0 = 1) ∧
      (∀ m : Fin 8, hostKind s m.val = 1 → boxField s m.val 0 ≠ 1 → Memory.wf s.msg = true →
        (s.sys.state = .running → ∃ u, exec (.hostBell (1#8 <<< m.val)) s = .next u ∧ boxField u m.val 0 = 2 ∧
          u.host.done.getLsbD m.val = true) ∧
        (s.sys.state ≠ .running → ∃ u, exec (.hostBell (1#8 <<< m.val)) s = .next u ∧ boxField u m.val 0 = 1 ∧ u.ing = s.ing)) ∧
      (∀ m : Fin 8, hostKind s m.val = 2 ∨ boxField s m.val 0 = 1 → exec (.hostBell (1#8 <<< m.val)) s =
        .next { x with host := { x.host with errBell := true } })) ∧
    (∀ m : Fin 8, Memory.wf s.msg = true → s.host.pend.getLsbD m.val = true → ∃ u, exec (.hostFin (1#8 <<< m.val) false) s = .next u ∧
      u.host.pend.getLsbD m.val = false ∧ u.host.done.getLsbD m.val = true ∧ boxField u m.val 0 = 2 ∧
      u.host.intLow = ((u.host.done &&& u.host.irqen) != 0)) ∧
    (∀ m : Fin 8, s.host.pend.getLsbD m.val = false → exec (.hostFin (1#8 <<< m.val) false) s = .next (openBlockGate s 0x1C02))

/-! ### Obtum and updates (R438-R442, R531-R545) -/

/-- R116, R143, R346, R354, R434, R438-R440, R442, R507, R525-R527, R545: the Obtum commands. A command is served where its request has arrived
on a channel that is served and its turn has come; it is refused with STATE and then with LENGTH, and answered by one response, which in a mailbox
stands at byte 16 with its LENGTH and RESULT; every command answers what R440 gives it, a refused one with an empty body.
The model's choices in it: log entries 13, 40, 42, 48, 56, 57, 58, 59, 60, 61, 62. -/
def Obligations.ObtumCommands : Prop :=
  ∀ (s : State) (ch : ObtChan) (tag : W32),
    let asked := fun (cmd : Nat) (body : List Byte) => asks s ch cmd tag body = true
    let ok := fun (cmd : Nat) (body : List Byte) => asked cmd body ∧ requestWhole s ch = true ∧ stateRefuses s cmd = false
    let answers := fun (cmd : Nat) (out : Out) (u : State) (st : Nat) (b : List Byte) => out = .next (respond u ch cmd tag st b)
    (obtumServes s ch = false → ∀ cmd body, asks s ch cmd tag body = false) ∧
    (∀ cmd body, s.obt.reqs = [] → asks s ch cmd tag body = false) ∧
    (∀ body, ∀ p ∈ [(1, Instr.identify ch tag body), (2, .status ch tag body), (3, .eventsRead ch tag body),
        (4, .eventsClear ch tag body), (5, .nonce ch tag body), (6, .valuesRead ch tag body), (7, .valuesEdit ch tag body),
        (8, .monitorsRead ch tag body), (9, .ageingRead ch tag body), (10, .taskStart ch tag body), (11, .taskStop ch tag body),
        (12, .swap ch tag body), (13, .partnerReset ch tag body), (14, .updateBegin ch tag body), (15, .updateBlock ch tag body),
        (16, .updateVerify ch tag body), (17, .updateActivate ch tag body), (18, .attest ch tag body),
        (19, .calendarSet ch tag body), (20, .calendarRead ch tag body)], asks s ch p.1 tag body = false → exec p.2 s = .next s) ∧
    (∀ (m : List Byte), obtumServes s ch = true → s.obt.reqs = [(ch, m)] → leAt m 4 4 = tag.toNat →
      asked (leAt m 0 2) (m.drop 8) ∧ (requestWhole s ch = true ↔ 8 ≤ m.length ∧ m.length ≤ 4080 ∧ leAt m 2 2 + 8 = m.length)) ∧
      (∀ body, asked 4 body → stateRefuses s 4 = true → answers 4 (exec (.eventsClear ch tag body) s)
        (if body.length = 154 then useNonce s ((body.drop 8).take 32) else s) 4 []) ∧
      (∀ body, ∀ p ∈ [(5, Instr.nonce ch tag body), (6, .valuesRead ch tag body), (7, .valuesEdit ch tag body), (8,
        .monitorsRead ch tag body), (9, .ageingRead ch tag body), (10, .taskStart ch tag body),
          (11, .taskStop ch tag body), (12, .swap ch tag body), (13, .partnerReset ch tag body), (14, .updateBegin ch tag body),
          (15, .updateBlock ch tag body), (16, .updateVerify ch tag body), (17, .updateActivate ch tag body),
          (18, .attest ch tag body), (19, .calendarSet ch tag body), (20, .calendarRead ch tag body)],
        asked p.1 body → stateRefuses s p.1 = true → answers p.1 (exec p.2 s) s 4 []) ∧
      (∀ body, ∀ p ∈ [(1, 0, Instr.identify ch tag body), (2, 0, .status ch tag body), (3, 8, .eventsRead ch tag body),
          (4, 154, .eventsClear ch tag body), (5, 0, .nonce ch tag body), (6, 8, .valuesRead ch tag body),
          (8, 4, .monitorsRead ch tag body), (9, 0, .ageingRead ch tag body), (10, 4, .taskStart ch tag body),
          (11, 4, .taskStop ch tag body), (12, 0, .swap ch tag body), (13, 0, .partnerReset ch tag body),
          (14, 136, .updateBegin ch tag body), (15, 2060, .updateBlock ch tag body), (16, 4, .updateVerify ch tag body),
          (17, 4, .updateActivate ch tag body), (18, 32, .attest ch tag body), (19, 8, .calendarSet ch tag body),
          (20, 0, .calendarRead ch tag body)],
        asked p.1 body → stateRefuses s p.1 = false → body.length ≠ p.2.1 ∨ requestWhole s ch = false → answers p.1 (exec p.2.2 s) s 2 []) ∧
      (∀ (cmd : W16) body, cmd.toNat = 0 ∨ 0x14 < cmd.toNat → asked cmd.toNat body → answers cmd.toNat (exec (.obtumUnknown ch tag cmd) s) s 1 []) ∧
      (ok 1 [] → answers 1 (exec (.identify ch tag []) s) s 0 (identifyBody s)) ∧
      (ok 2 [] → answers 2 (exec (.status ch tag []) s) s 0 (statusBody s)) ∧
      (∀ body, body.length = 8 → ok 3 body →
        (leAt body 4 2 = 0 ∨ 126 < leAt body 4 2 → answers 3 (exec (.eventsRead ch tag body) s) s 3 []) ∧
        (leAt body 0 4 = (firstSeq s).toNat → 1 ≤ leAt body 4 2 → leAt body 4 2 ≤ 126 → zeros body 6 2 = true → 0 < s.evt.count →
          ∃ b, answers 3 (exec (.eventsRead ch tag body) s) (readRecords s 0 (min (leAt body 4 2) s.evt.count)) 0 b ∧
            leAt b 0 2 = min (leAt body 4 2) s.evt.count ∧
            b.length = 8 + 32 * min (leAt body 4 2) s.evt.count ∧ (b.drop 8).take 32 = logRecord s 0)) ∧
      (∀ body c, body.length = 154 → ok 4 body → s.cht.charter = some c → zeros body 1 3 = true → leAt body 0 1 = c.head.keyix →
        (ownerKey s c.head.keyix).isSome = true → let n := (body.drop 8).take 32
        (nonceValid s n = false → answers 4 (exec (.eventsClear ch tag body) s) (useNonce s n) 0x0B []) ∧
        (nonceValid s n = true → leAt body 4 4 ≠ s.evt.seq.toNat → answers 4 (exec (.eventsClear ch tag body) s) (useNonce s n) 3 []) ∧
        (nonceValid s n = true → leAt body 4 4 = s.evt.seq.toNat → s.pil.pfw = false →
          Config.ed448phVerify [0x4C, 0x5A, 0x45, 0x56] c.head.pubkey
            (padTo 57 ((Config.identityPub s.sec.keys).take 57) ++ (body.drop 4).take 36) (body.drop 40) = true →
          answers 4 (exec (.eventsClear ch tag body) s) (clearLog (useNonce s n) c.head.keyix) 0 (leBytes 4 s.evt.count) ∧
            (clearLog (useNonce s n) c.head.keyix).evt.count = 1 ∧ (clearLog (useNonce s n) c.head.keyix).obt.nonce = none ∧
            (clearLog (useNonce s n) c.head.keyix).evt.clears = s.evt.clears + 1) ∧
        (nonceValid s n = true → leAt body 4 4 = s.evt.seq.toNat → s.pil.pfw = true →
          Config.ed448phVerify [0x4C, 0x5A, 0x45, 0x56] c.head.pubkey
            (padTo 57 ((Config.identityPub s.sec.keys).take 57) ++ (body.drop 4).take 36) (body.drop 40) = true →
          answers 4 (exec (.eventsClear ch tag body) s) (refuseCommit (useNonce s n) 1) 0x12 [])) ∧
      (ok 5 [] → ∃ n : List Byte, n.length = 32 ∧ answers 5 (exec (.nonce ch tag []) s)
        { s with obt := { s.obt with nonce := some (n, 0), nonces := s.obt.nonces + 1 } } 0 n) ∧
      (∀ body, body.length = 8 → ok 6 body →
        (1 < leAt body 0 1 ∨ 1 < leAt body 1 1 ∨ leAt body 2 2 = 0 ∨ 800 < leAt body 2 2 →
          answers 6 (exec (.valuesRead ch tag body) s) s 3 []) ∧
        (leAt body 0 1 ≤ 1 → leAt body 1 1 ≤ 1 → 1 ≤ leAt body 2 2 → leAt body 2 2 ≤ 800 →
          let ws := readRun s (if leAt body 0 1 = 1 then .b else .a) (leAt body 1 1 == 1) (leAt body 2 2) (leAt body 4 4)
          answers 6 (exec (.valuesRead ch tag body) s) s (if ws.length = leAt body 2 2 then 0 else 6)
            (leBytes 2 ws.length ++ leBytes 2 0 ++ ws.flatMap packWord))) ∧
      (∀ body es, ok 7 body → body.length = 4 + 12 * leAt body 0 2 → 1 ≤ leAt body 0 2 → leAt body 0 2 ≤ 64 → zeros body 2 2 = true →
        editEntries body (leAt body 0 2) = some es →
        ((postEdits es s).2 = 0 → answers 7 (exec (.valuesEdit ch tag body) s) (postEdits es s).1 0
          (leBytes 2 (leAt body 0 2) ++ leBytes 2 0 ++ leBytes 2 (editWord s 3))) ∧
        ((postEdits es s).2 ≠ 0 → answers 7 (exec (.valuesEdit ch tag body) s) (postEdits es s).1 (postEdits es s).2 [])) ∧
      (∀ m : Point, ok 8 [BitVec.ofNat 8 m.val, 1, 0, 0] → answers 8 (exec (.monitorsRead ch tag [BitVec.ofNat 8 m.val, 1, 0, 0]) s) s 0
        (leBytes 2 1 ++ leBytes 2 0 ++ pointBytes s m true)) ∧
      (ok 9 [] → answers 9 (exec (.ageingRead ch tag []) s) s 0 (ageingBody s)) ∧
      (∀ mask : W16, let body := leBytes 2 mask.toNat ++ leBytes 2 0
        ok 10 body →
        ((∃ t : Task, mask.getLsbD t.val = true ∧ taskRec s t = none) → answers 10 (exec (.taskStart ch tag body) s) s 9 []) ∧
        ((∀ t : Task, mask.getLsbD t.val = true → (taskRec s t).isSome = true) → ∃ u b, answers 10 (exec (.taskStart ch tag body) s) u 0 b ∧
          ∀ t : Task, (mask.getLsbD t.val = true → startable s t = true → (u.task t).phase = .ready s.seq.ut ∧ (u.task t).number = 0 ∧
            (u.task t).firstCycle = true) ∧ (mask.getLsbD t.val = false ∨ startable s t = false → u.task t = s.task t))) ∧
      (∀ mask : W16, let body := leBytes 2 mask.toNat ++ leBytes 2 0
        ok 11 body →
        (∀ t : Task, mask.getLsbD t.val = true → (taskRec s t).isSome = true) → ∃ u b, answers 11 (exec (.taskStop ch tag body) s) u 0 b ∧
          ∀ t : Task, (∀ a, mask.getLsbD t.val = true → (s.task t).phase = .ready a → (u.task t).phase = .stopped) ∧
            (mask.getLsbD t.val = true → (s.task t).phase = .opened → u.task t = { s.task t with stopReq := true }) ∧
            (mask.getLsbD t.val = false → u.task t = s.task t)) ∧
      (ok 12 [] → answers 12 (exec (.swap ch tag []) s) (triggerSwap s 0) (if swapRefusal s = 0 then 0 else 0x0A) []) ∧
      (ok 13 [] → answers 13 (exec (.partnerReset ch tag []) s) (queueFrame s .resetReq) 0 []) ∧
      (∀ body, body.length = 32 → ok 18 body → answers 18 (exec (.attest ch tag body) s) s 0 (attestBody s body) ∧
        (attestBody s body).length = 338) ∧
      (∀ c : Cal, c.year ≤ 399 → c.month < 256 → c.day < 256 → c.hour < 256 → c.minute < 256 → c.second < 256 →
        let body := leBytes 2 (2000 + c.year) ++ leBytes 1 c.month ++ leBytes 1 c.day ++ leBytes 1 c.hour ++ leBytes 1 c.minute ++
          leBytes 1 c.second ++ leBytes 1 0
        ok 19 body → (s.bkp.locked = true → answers 19 (exec (.calendarSet ch tag body) s) s 0 []) ∧
        (c.valid = true → s.bkp.locked = false → answers 19 (exec (.calendarSet ch tag body) s)
          { s with bkp := { s.bkp with cal := { c with frac := 0 }, timeValid := true } } 0 []) ∧
        (c.valid = false → s.bkp.locked = false → answers 19 (exec (.calendarSet ch tag body) s)
          (notifySeam { s with bkp := { s.bkp with dateErr := true, setYm := 0, setDh := 0, setMs := 0 } } 1) 0x11 [])) ∧
      (ok 20 [] → answers 20 (exec (.calendarRead ch tag []) s) s 0 (calendarBody s)) ∧
      (s.bkp.locked = true → calendarBody s = List.replicate 12 0) ∧
    (identifyBody s).length = 80 ∧ (statusBody s).length = 64 ∧ (ageingBody s).length = 16 ∧ (calendarBody s).length = 12 ∧
    (∀ (m : Fin 8) cmd st b, Memory.wf s.msg = true → 12 + b.length ≤ 4080 → st < 65536 → cmd < 0x8000 →
      let u := respond s (.mailbox m) cmd tag st b
      boxField u m.val 2 = 12 + b.length ∧ boxField u m.val 6 = st ∧
        msgBytes u.msg (4096 * m.val + 16) (12 + b.length) = responseBytes cmd tag st b ∧
        (responseBytes cmd tag st b).length = 12 + b.length ∧ leAt (responseBytes cmd tag st b) 0 2 = cmd + 0x8000 ∧
        leAt (responseBytes cmd tag st b) 4 4 = tag.toNat ∧ leAt (responseBytes cmd tag st b) 8 2 = st) ∧
    (∀ (n : Bus) cmd st b r rest, s.obt.reqs = (.bus n, r) :: rest → let u := respond s (.bus n) cmd tag st b
      u.obt.resp[n] = responseBytes cmd tag st b ∧ u.obt.reqs = rest) ∧
    ∀ n : Bus, exec (.obtGapExpiry n) s = .next { s with obt := { s.obt with rx := s.obt.rx.set n none } }

/-- R86, R441, R538-R542, R547, R548: updates. A begun transfer marks the inactive slot LOADING and voids its mark; halves arrive in order, a repeat
changes nothing, anything else is SEQUENCE; verification sets the mark or marks the slot FAILED; activation needs the mark and flips
the active slot, and no firmware older than the charter's MIN_FW verifies; the flash port and the engine report their ends, and a change that ran out
of time leaves the earlier page standing.
The model's choices in it: log entries 39, 56, 62, 63, 64, 65, 104. -/
def Obligations.ImageUpdates : Prop :=
  ∀ (s : State) (ch : ObtChan) (tag : W32) (k : ImageKind), requestWhole s ch = true → s.sys.state = .running →
    let b := !wantedActive s k
    let entry := fun (u : State) => entryOf (wantedRecord u) k
    let asked := fun (cmd : Nat) (body : List Byte) => asks s ch cmd tag body = true
    let kind : List Byte := leBytes 1 k.code ++ leBytes 3 0
    (∀ (n : Nat) (wrap : List Byte), wrap.length = 128 → 1 ≤ n → n ≤ 67108864 → let body := kind ++ leBytes 4 n ++ wrap
      asked 14 body →
      (session s k = none → wantedActive s k = s.xsp.inUse[kindIx k] → portOk s false = true → ∃ u x, exec (.updateBegin ch tag body) s =
          .next (respond u ch 14 tag 0 (leBytes 4 (transferBlocks n))) ∧ session u k = some x ∧ x.owner = ch ∧ x.length = n ∧
          x.nextHalf = 0 ∧ x.slotB = b ∧ x.wrap = wrap ∧ entryState (entry u) b = slotLoading ∧
          entryGen (entry u) b = entryGen (entry s) b + 1 ∧ wantedActive u k = wantedActive s k ∧
          u.sec.vmark[kindIx k] = none ∧ flashBusy u = true ∧ currentRecord u.flash = currentRecord s.flash) ∧
      (∀ x, session s k = some x → x.owner ≠ ch → sessionOpen x = true →
        exec (.updateBegin ch tag body) s = .next (respond s ch 14 tag 5 [])) ∧
      (session s k = none → wantedActive s k ≠ s.xsp.inUse[kindIx k] → exec (.updateBegin ch tag body) s = .next (respond s ch 14 tag 4 []))) ∧
    (∀ (half index : Nat) (crc : W32) (data : List Byte) x, half ≤ 1 → index < 2 ^ 31 → data.length = 2048 → s.pil.pfw = false →
      session s k = some x → let body := leBytes 1 k.code ++ leBytes 1 half ++ leBytes 2 0 ++ leBytes 4 index ++ leBytes 4 crc.toNat ++ data
      asked 15 body →
      (x.owner ≠ ch → exec (.updateBlock ch tag body) s = .next (respond s ch 15 tag 5 [])) ∧
      (x.owner = ch → 2 * index + half + 1 = x.nextHalf →
        exec (.updateBlock ch tag body) s = .next (respond s ch 15 tag 0 (leBytes 4 (x.nextHalf / 2)))) ∧
      (x.owner = ch → 2 * index + half + 1 ≠ x.nextHalf → 2 * index + half ≠ x.nextHalf →
        exec (.updateBlock ch tag body) s = .next (respond s ch 15 tag 0x0E [])) ∧
      (x.owner = ch → 2 * index + half = x.nextHalf → sessionOpen x = true → kindPort s k = true →
        (half = 0 → ∃ u, exec (.updateBlock ch tag body) s = .next (respond u ch 15 tag 0 (leBytes 4 index)) ∧
          session u k = some { x with nextHalf := 2 * index + 1, half0 := data, crc0 := crc }) ∧
        (half = 1 → crc ≠ x.crc0 ∨ crc32c (x.half0 ++ data) ≠ crc →
          exec (.updateBlock ch tag body) s = .next (respond (putSession s { x with nextHalf := 2 * index, half0 := [] }) ch 15 tag 0x0D [])) ∧
        (half = 1 → crc = x.crc0 → crc32c (x.half0 ++ data) = crc → ∃ u x', exec (.updateBlock ch tag body) s =
            .next (respond u ch 15 tag 0 (leBytes 4 (index + 1))) ∧ session u k = some x' ∧ x'.nextHalf = 2 * index + 2 ∧
          (index + 1 = transferBlocks x.length → entryState (entry u) x.slotB = slotLoaded)))) ∧
    (s.pil.pfw = false → s.sec.busy = false → asked 16 kind →
      (∀ bs, entryState (entry s) b = slotLoaded → verifyWhole s k b = .ok bs → ∃ u,
        exec (.updateVerify ch tag kind) s = .next (respond u ch 16 tag 0 (Config.shake256 64 bs)) ∧
        u.sec.vmark[kindIx k] = some (entryGen (entry s) b) ∧ u.flash = s.flash) ∧
      (∀ c n, entryState (entry s) b = slotLoaded → verifyWhole s k b = .error (c, n) → ∃ u,
        exec (.updateVerify ch tag kind) s = .next (respond u ch 16 tag 0x0F []) ∧ entryState (entry u) b = slotFailed ∧
        u.sec.vmark[kindIx k] = none) ∧
      (entryState (entry s) b ≠ slotLoaded → entryState (entry s) b ≠ slotFailed →
        exec (.updateVerify ch tag kind) s = .next (respond s ch 16 tag 0x10 []))) ∧
    (s.pil.pfw = false → s.sec.busy = false → asked 17 kind →
      (s.sec.vmark[kindIx k] ≠ some (entryGen (entry s) b) →
        exec (.updateActivate ch tag kind) s = .next (respond s ch 17 tag 0x10 [])) ∧
      (∀ bs, s.sec.vmark[kindIx k] = some (entryGen (entry s) b) → verifyWhole s k b = .ok bs → ∃ u,
        exec (.updateActivate ch tag kind) s = .next (respond u ch 17 tag 0 []) ∧ wantedActive u k = b ∧
        entryState (entry u) b = slotVerified ∧ entryHash (entry u) b = Config.shake256 64 bs)) ∧
    (∀ bs c, k = .firmware → s.cht.charter = some c → verifyWhole s k b = .ok bs → c.head.minFw.toNat ≤ leAt bs 8 4) ∧
    (s.xsp.slotOp = none → s.xsp.dirq = [] → exec .dirTmoExpiry s = .next s ∧
      ∀ p, exec (.flashPortDone p) s = .next (notifySeam { s with hf := { s.hf with noteFlash := true } } 10)) ∧
    (∀ c rest, s.xsp.slotOp = none → s.xsp.dirq = c :: rest →
      (∃ u, exec (.flashPortDone false) s = .next u ∧ u.hf.noteFlash = true ∧ u.xsp.dirq = rest ∧
        (currentRecord u.flash).dseq = (currentRecord s.flash).dseq + 1 ∧
        ∀ j, entryOf (currentRecord u.flash) j = entryOf (changedRecord (currentRecord s.flash) c) j) ∧
      ∃ u, exec .dirTmoExpiry s = .next u ∧ u.xsp.err = true ∧ u.xsp.dirq.length ≤ rest.length ∧
        currentRecord u.flash = currentRecord s.flash ∧ (s.sec.failValid = false → u.sec.failCode = 10 ∧ u.sec.failKind = c.kind.code)) ∧
    (∀ o, s.xsp.slotOp = some o → ∃ u, exec .dirTmoExpiry s = .next u ∧ u.xsp.err = true ∧ u.xsp.slotOp = none ∧
      session u o.kind = none ∧ currentRecord u.flash = currentRecord s.flash) ∧
    (s.sec.busy = true → exec .cryptoEngineDone s = .next { s with
      sec := { s.sec with busy := false }, hf := { s.hf with noteCrypto := true } }) ∧
    (s.sec.busy = false → exec .cryptoEngineDone s = .next s)

/-! ### The test access port (R299, R546, R562-R575) -/

/-- R299, R546, R562-R575: the test access port. An instruction that drives pins is BYPASS while the part runs or holds a claim; a challenge
and a response that verifies open a session with its scope; frames act on targets in scope, and one that alters a lane unpairs the
part; fuses burn and keys are made in production test alone.
The model's choices in it: log entries 41, 42, 43, 44, 45, 46, 47, 61, 124, 125. -/
def Obligations.TestAccess : Prop :=
  ∀ (s : State) (t : DbgTarget),
    let x := s.tap
    let answered := fun (st : Nat) => { s with tap := { x with status := st } }
    let captured := fun (v : State) => { v with tap := { v.tap with captured := debugRegister v } }
    let frame := fun (target cmd : Nat) (a : BitVec 24) (d : W36) (st : Nat) => ({ x with
      cmd := BitVec.ofNat 8 cmd, target := BitVec.ofNat 4 target, addr := a, data := d, status := st } : TapState)
    let framed := fun (cmd : Nat) (a : BitVec 24) (d : W36) (st : Nat) => { s with tap := frame (targetBit t) cmd a d st }
    let produced := fun (cmd : Nat) (a : BitVec 24) (d : W36) (st : Nat) => { s with tap := frame 0 cmd a d st }
    (∃ u, exec .tapReset s = .next u ∧ u.tap.ir = 0x01 ∧ u.tap.irShift = 0x01 ∧ u.pair = s.pair ∧ (s.fd.loopback = false → u.fd = s.fd)) ∧
    (∃ u, exec .idcode s = .next u ∧ u.tap.ir = 0x01 ∧ u.tap.ident = 0x1481674F ∧ u.tap.data = x.data ∧ u.tap.boundary = x.boundary) ∧
    (∀ pins, ∃ u, exec (.samplePreload pins) s = .next u ∧ u.tap.ir = 0x02 ∧ u.tap.boundary = pins) ∧
    (∀ c, c ∉ [0x00#8, 0x01#8, 0x02#8, 0x03#8, 0x04#8, 0x20#8, 0x21#8] → ∃ u, exec (.bypass c) s = .next u ∧ u.tap.ir = 0xFF ∧
      u.tap.bypass = false ∧ u.tap.boundary = x.boundary) ∧
    (∀ c ∈ [0x01#8, 0x02#8], ∃ u, exec (.bypass c) s = .next u ∧ u.tap.ir = c) ∧
    (∀ p ∈ [(0x00#8, Instr.extest), (0x03#8, .clamp), (0x04#8, .highz), (0x20#8, .fieldtest)],
      (s.sys.state ≠ .running → s.pair.claim = 0 → ∃ u, exec p.2 s = .next u ∧ u.tap.ir = p.1 ∧ u.tap.refused = x.refused) ∧
      (s.sys.state = .running ∨ s.pair.claim ≠ 0 → ∃ u, exec p.2 s = .next u ∧ u.tap.ir = 0xFF ∧ u.tap.refused = true ∧
        u.fd = leaveLoopback s.fd)) ∧
    (s.sys.state ≠ .running → s.pair.claim = 0 → ∃ u, exec .fieldtest s = .next u ∧ u.fd.loopback = true ∧
      ∀ i : Chan, u.fd.ch[i].driver = false) ∧
    (s.sys.state ≠ .running → s.pair.claim = 0 → (∃ u, exec .extest s = .next u ∧ u.tap.ir = 0x00 ∧ u.tap.boundary = x.boundary) ∧
      (∃ u, exec .clamp s = .next u ∧ u.tap.ir = 0x03 ∧ u.tap.boundary = x.boundary) ∧
      ∃ u, exec .highz s = .next u ∧ u.tap.ir = 0x04 ∧ u.tap.boundary = x.boundary) ∧
    (∀ d, x.ir = 0x20 → ∃ u o b, exec (.fieldLoopbackUpdate d) s = .next u ∧ u.tap = { x with
      drive := d &&& ~~~(1#34 <<< 33)
      loop := (BitVec.ofBool b ++ BitVec.ofBool (decide (500 < s.fd.vfield.toNat))) ++ ((x.drive ||| o) ++ x.drive) } ∧ u.fd = s.fd) ∧
    (∀ d, x.ir ≠ 0x20 → exec (.fieldLoopbackUpdate d) s = .next s) ∧
    (s.sys.state = .running → x.prod = false → ∃ u, exec .dbgauth s = .next u ∧ u.tap.ir = 0x21 ∧ u.sec = s.sec) ∧
    (x.prod = true → s.sec.open_ = false → stepOneDone s = true → ∃ u, exec .dbgauth s = .next u ∧ u.tap.ir = 0x21 ∧
      u.sec.open_ = true ∧ u.sec.scope = 7) ∧
    (x.ir = 0x21 → s.sec.open_ = false →
      (debugRegister s).length = 174 ∧ (debugRegister s).head? = some (BitVec.ofNat 8 x.status) ∧
      (x.checking.isSome = true → exec .debugChallenge s = .next (captured s)) ∧
      (x.checking = none → fuseDbgLock s = true → exec .debugChallenge s = .next (captured (answered 4))) ∧
      (x.checking = none → fuseDbgLock s = false → x.nonce = none → ∃ n : List Byte, n.length = 32 ∧ exec .debugChallenge s =
        .next (captured { s with tap := { x with nonce := some (n, 0), nonces := x.nonces + 1 } })) ∧
      (∀ old age, x.checking = none → fuseDbgLock s = false → x.nonce = some (old, age) →
        (age ≤ 61440 → exec .debugChallenge s = .next (captured s)) ∧
        (61440 < age → ∃ n : List Byte, n.length = 32 ∧ exec .debugChallenge s =
          .next (captured { s with tap := { x with nonce := some (n, 0), nonces := x.nonces + 1, status := 5 } }))) ∧
      (∀ sc ks pk sg, x.checking = none → fuseDbgLock s = false → challengeExpired s = false →
        exec (.debugResponse sc ks pk sg) s = .next { s with tap := { x with checking := some ⟨sc, ks, pk, sg⟩, status := 1 } }) ∧
      (∀ sc ks pk sg, x.checking = none → fuseDbgLock s = false → challengeExpired s = true →
        exec (.debugResponse sc ks pk sg) s = .next { s with tap := { x with nonce := none, status := 5 } }) ∧
      (∀ sc ks pk sg, x.checking = none → fuseDbgLock s = true → exec (.debugResponse sc ks pk sg) s = .next (answered 4))) ∧
    (x.checking = none → exec .debugCheckComplete s = .next s) ∧
    (∀ r, x.checking = some r →
      (responseValid s r = true → fuseDbgLock s = false → ∃ u, exec .debugCheckComplete s = .next u ∧ u.sec.open_ = true ∧
        u.sec.scope = r.scope.setWidth 3 ∧ u.tap.status = 2 ∧ u.tap.nonce = none ∧ u.tap.checking = none) ∧
      (responseValid s r = false ∨ fuseDbgLock s = true → exec .debugCheckComplete s =
        .next { s with tap := { x with checking := none, nonce := none, status := 3 } })) ∧
    (x.ir ≠ 0x21 ∨ s.sec.open_ = false → exec (.halt t) s = .next s ∧ exec (.step t) s = .next s ∧ exec (.resume t) s = .next s ∧
      (∀ a d, exec (.readReg t a) s = .next s ∧ exec (.writeReg t a d) s = .next s ∧ exec (.readMem t a) s = .next s ∧
        exec (.writeMem t a d) s = .next s ∧ exec (.burn a d) s = .next s) ∧ exec .keygen s = .next s) ∧
    (x.ir = 0x21 → s.sec.open_ = true → s.sec.scope.getLsbD (targetBit t) = false →
      exec (.halt t) s = .next (framed 1 0 0 3) ∧ exec (.step t) s = .next (framed 2 0 0 3) ∧ exec (.resume t) s = .next (framed 3 0 0 3) ∧
      ∀ a d, exec (.readReg t a) s = .next (framed 4 a 0 3) ∧ exec (.writeReg t a d) s = .next (framed 5 a d 3) ∧
        exec (.readMem t a) s = .next (framed 6 a 0 3) ∧ exec (.writeMem t a d) s = .next (framed 7 a d 3)) ∧
    (x.ir = 0x21 → s.sec.open_ = true →
      (∀ l, targetLane t = some l → s.sec.scope.getLsbD (targetBit t) = true →
        (∃ u, exec (.halt t) s = .next u ∧ (u.lane l).halted = true ∧ (u.lane l).stepOne = false ∧ u.tap.status = 2 ∧
          u.asy.unpaired = true ∧ (s.asy.unpaired = false → u.asy.pend = [] ∧ u.asy.debugOut = fuseDbgOut s)) ∧
        (∃ u, exec (.step t) s = .next u ∧ (u.lane l).halted = true ∧ (u.lane l).stepOne = true ∧ u.asy.unpaired = true) ∧
        (∃ u, exec (.resume t) s = .next u ∧ (u.lane l).halted = false ∧ (u.lane l).stepOne = false ∧ u.asy = s.asy) ∧
        (∀ (r : Fin 16) (a : BitVec 24) d, a.toNat = r.val →
          exec (.readReg t a) s = .next (framed 4 a (s.lane l).ctx.x[r] 2) ∧
          (s.asy.unpaired = true → ∃ u, exec (.writeReg t a d) s = .next u ∧
            (u.lane l).ctx = { (s.lane l).ctx with x := (s.lane l).ctx.x.set r d } ∧ (u.lane l).mem = (s.lane l).mem)) ∧
        (∀ (a : BitVec 24) d, a.toNat < 0x220000 →
          exec (.readMem t a) s = .next (framed 6 a (memGet (s.lane l).mem a.toNat) 2) ∧
          (s.asy.unpaired = true → ∃ u, exec (.writeMem t a d) s = .next u ∧ (u.lane l).mem = memSet (s.lane l).mem a.toNat d ∧
            u.msg = s.msg)) ∧
        (∀ (a : BitVec 24) d, 0x220000 ≤ a.toNat → exec (.readMem t a) s = .fault .reservedAddress ∧
          exec (.writeMem t a d) s = .fault .reservedAddress)) ∧
      (targetLane t = none → s.sec.scope.getLsbD 2 = true →
        exec (.halt t) s = .next { framed 1 0 0 2 with hf := { s.hf with halted := true, stepOne := false } } ∧
        exec (.step t) s = .next { framed 2 0 0 2 with hf := { s.hf with halted := true, stepOne := true } } ∧
        exec (.resume t) s = .next { framed 3 0 0 2 with hf := { s.hf with halted := false, stepOne := false } } ∧
        (∀ (r : Fin 16) (a : BitVec 24) d, a.toNat = r.val →
          exec (.readReg t a) s = .next (framed 4 a (s.hf.w[r].setWidth 36) 2) ∧
          exec (.writeReg t a d) s = .next { framed 5 a d 2 with hf := { s.hf with w := s.hf.w.set r (d.setWidth 16) } }) ∧
        (∀ (a : BitVec 24) d, a.toNat < 0x8000 →
          exec (.readMem t a) s = .next (framed 6 a ((memGet s.hf.ram a.toNat).setWidth 36) 2) ∧
          exec (.writeMem t a d) s = .next { framed 7 a d 2 with hf := { s.hf with ram := memSet s.hf.ram a.toNat (d.setWidth 16) } }) ∧
        ∀ (a : BitVec 24) d, 0x10000 ≤ a.toNat → exec (.readMem t a) s = .fault .reservedAddress ∧
          exec (.writeMem t a d) s = .fault .reservedAddress) ∧
      (x.prod = false → (∀ w d, exec (.burn w d) s = .next (produced 8 w d 3)) ∧ exec .keygen s = .next (produced 9 0 0 3)) ∧
      (x.prod = true →
        (∀ (w : Fin 44) (a : BitVec 24) d, a.toNat = w.val → ∃ u, exec (.burn a d) s = .next u ∧
          u.fuses.word = s.fuses.word.set w (s.fuses.word[w] ||| d.setWidth 32) ∧ u.tap.status = 2) ∧
        (∃ u, exec .keygen s = .next u ∧ u.fuses = s.fuses ∧ u.sec.keys = (if s.sec.keys = 0 then 1 else s.sec.keys))))

/-! ### Ageing, monitors, the pillar, the backup domain and the event recorder (R472-R530, R550, R553) -/

/-- R45, R472-R478, R481-R486, R553: the canaries, the ledger and the margin plan step by step, the monitors with their limits and layouts,
and the lane rails.
The model's choices in it: log entries 36, 50, 51, 52, 53. -/
def Obligations.AgeingAndMonitors : Prop :=
  ∀ (s : State) (l : LaneId),
    let g := s.age
    (∀ (i : Fin 48) v, i = g.canaryTurn → i.val + 1 ≠ canaryBase (canaryIsland i) + canaryCount (canaryIsland i) →
      exec (.canaryMeasurement i v) s = .next { s with age := { g with canary := g.canary.set i v, canaryTurn := i + 1 } }) ∧
    (∀ (i : Fin 48) v, i = g.canaryTurn → ∃ u, exec (.canaryMeasurement i v) s = .next u ∧
      u.age = { g with canary := g.canary.set i v, canaryTurn := i + 1 }) ∧
    (∀ (i : Fin 48) v, i ≠ g.canaryTurn → exec (.canaryMeasurement i v) s = .next s) ∧
    (∀ (i : Island) v, (i = g.roTurn →
      exec (.ringOscillatorMeasurement i v) s = .next { s with age := { g with ro := g.ro.set i v, roTurn := i + 1 } }) ∧
      (i ≠ g.roTurn → exec (.ringOscillatorMeasurement i v) s = .next s)) ∧
    (∀ tA tB mA mB, let units := accelUnits (max tA tB) (max mA mB)
      ∃ u, exec (.ledgerAccumulate (tA, tB) (mA, mB)) s = .next u ∧ u.age.planAge = g.planAge + 1 ∧ u.age.powered = g.powered + 1 ∧
        u.age.acc = BitVec.ofNat 32 (g.acc.toNat + units) ∧
        u.age.ledger = g.ledger + BitVec.ofNat 48 ((g.acc.toNat + units) / 2 ^ 32) ∧ u.age.life = g.life) ∧
    (∀ tj mv : Nat, 5 * tj + 4 * mv ≤ 8000 → let x := accelUnits tj mv - bit (Config.accelRoundUp tj mv)
      (225 * x) ^ 200 ≤ 2 ^ (5 * tj + 4 * mv + 220) ∧ 2 ^ (5 * tj + 4 * mv + 220) < (225 * (x + 1)) ^ 200) ∧
    (∀ slacks, ageFlag s 0 = false ∨ g.planRun = true ∨ s.pil.pfw = true → exec (.ageCmd slacks false) s = .next (openBlockGate s 0x2807) ∧
      exec (.marginPlanDue slacks) s = .next s) ∧
    (∀ slacks, ageFlag s 0 = true → g.planRun = false → s.pil.pfw = false →
      (∃ u, exec (.ageCmd slacks false) s = .next u ∧ (∀ i : Fin 48, u.age.canary[i] = slacks.getD i.val 0) ∧ u.laneA.ldo = s.laneA.ldo ∧
        u.laneB.ldo = s.laneB.ldo ∧ u.clk.target = s.clk.target ∧
        (u.age.planRun = true ↔ u.age.planA ≠ .idle ∧ ¬ (u.age.planA = .done ∧ u.age.planB = .done)) ∧
        ((slacks.getD 0 0).toNat < g.slackTarget → s.laneA.ldo < ldoMax s → u.age.planA = .stepDue false)) ∧
      (86400 ≤ g.planAge ∨ g.lostDue = true ∧ s.sys.state = .running → ∃ u, exec (.marginPlanDue slacks) s = .next u ∧ ∀ i : Fin 48,
        u.age.canary[i] = slacks.getD i.val 0) ∧
      (g.planAge < 86400 → g.lostDue = false ∨ s.sys.state ≠ .running → exec (.marginPlanDue slacks) s = .next s)) ∧
    (∀ down, planMayChange s = true → planOf s l = .stepDue down → ∃ u, exec (.ldoStep l) s = .next u ∧
      (u.lane l).ldo = (if down = true then (s.lane l).ldo - 1 else (s.lane l).ldo + 1) ∧ (u.lane l.other).ldo = (s.lane l.other).ldo ∧
      planOf u l = .remeasure down ∧ planOf u l.other = planOf s l.other ∧ u.clk.target = s.clk.target ∧ u.clk.cur = s.clk.cur) ∧
    (planMayChange s = false → exec (.ldoStep l) s = .next s ∧ exec (.dividerStep l) s = .next s) ∧
    (∀ down slacks, planOf s l = .remeasure down → planOf s l.other ≠ .done → ∃ u, exec (.laneRemeasure l slacks) s = .next u ∧
      (∀ k, k < 8 → ∀ h : 8 * (laneIsland l).val + k < 48, u.age.canary[8 * (laneIsland l).val + k] = slacks.getD k 0) ∧
      (islandSlack u.age (laneIsland l) < g.slackTarget → (s.lane l).ldo < ldoMax s → planOf u l = .stepDue false) ∧
      u.laneA.ldo = s.laneA.ldo ∧ u.laneB.ldo = s.laneB.ldo) ∧
    (planMayChange s = true → planOf s l = .dividerDue → planOf s l.other ≠ .done → planOf s l.other ≠ .dividerDue →
      ∃ u, exec (.dividerStep l) s = .next u ∧ u.clk.target[laneIsland l] = 3 ∧ u.age.stepped = true ∧ planOf u l = .done ∧
        (isSplit s = false → u.clk.target[(0 : Island)] = 3 ∧ u.clk.target[(1 : Island)] = 3) ∧ u.laneA = s.laneA ∧ u.laneB = s.laneB) ∧
    (∃ u, exec (.laneRailFault l) s = .next u ∧ u.pair.role = .faulted ∧ u.laneA.stopped = (s.laneA.stopped || s.pair.role != .faulted)) ∧
    (∀ (m : Point) v, let old := s.hlt.data[m]
      (s.hlt.layout[m].source ∉ [4, 5, 6, 7] → exec (.monitorSample m v) s = .next s) ∧
      (s.hlt.layout[m].source ∈ [4, 5, 6, 7] → ∃ u, exec (.monitorSample m v) s = .next u ∧ u.hlt.data[m].last = v ∧
        (u.hlt.data[m].min = if v < old.min then v else old.min) ∧ (u.hlt.data[m].max = if old.max < v then v else old.max) ∧
        u.hlt.data[m].samples = satInc32 old.samples ∧ (∀ n : Point, n ≠ m → u.hlt.data[n] = s.hlt.data[n]) ∧
        (s.hlt.lim[m] ≠ 0 → s.hlt.lim[m] < v → u.hlt.above.getLsbD m.val = true) ∧
        (s.hlt.lim[m] = 0 ∨ v ≤ s.hlt.lim[m] → u.hlt.above = s.hlt.above ∧ u.evt = s.evt))) ∧
    (∀ v : W16, exec (.hltSel v false) s = .next { s with hlt := { s.hlt with
      sel := Fin.ofNat 32 (v.toNat % 32), buf := s.hlt.data[(Fin.ofNat 32 (v.toNat % 32) : Point)] } }) ∧
    exec (.hltClr false) s = .next { s with hlt := { s.hlt with data := s.hlt.data.set s.hlt.sel MonData.init } } ∧
    (∀ v : W16, expertGranted s 0x2702 = true →
      let src := s.hlt.xsrc.toNat
      let fine := layoutValid (src / 4096) (src % 256) (src.testBit 11) s.hlt.xwidthLo.toNat v.toNat
      (fine = true → ∃ u, exec (.hltXwidthHi v false) s = .next u ∧
        u.hlt.layout[s.hlt.sel] = ⟨src / 4096, src % 256, src.testBit 11, s.hlt.xwidthLo.toNat, v.toNat⟩ ∧
        u.hlt.data[s.hlt.sel] = MonData.init ∧ u.hlt.xwidthHi = v) ∧
      (fine = false → exec (.hltXwidthHi v false) s = .next { s with hlt := { s.hlt with layoutDenied := true, xwidthHi := v } }))

/-- R489-R497, R500, R512, R550, R583: the pillar store. A buffer is loaded, filled and committed by pages; a commit outside the master's area, of
a parameter page or under the warning is refused with its reason; a store copies the RET words, then the content into the bank of the
lower number, whose marker counts on; a page load and a scrub pass correct single-bit errors and note what cannot be corrected, and an
uncorrectable word of a lane is a unit fault. The model's choices in it: log entries 77, 93, 94, 98. -/
def Obligations.PillarStore : Prop :=
  ∀ (s : State),
    let p := s.pil
    (∀ v : W16, (∀ g ∈ p.bad ++ p.single, g / 8 ≠ v.toNat % 16384) → exec (.pilPage v false) s =
      .next { s with pil := { p with hf := Gather.load s (v.toNat % 16384) } }) ∧
    (∀ v : W16, ∃ u, exec (.pilPage v false) s = .next u ∧ u.pil.hf = Gather.load u (v.toNat % 16384) ∧
      (∀ g, g ∈ u.pil.single ↔ g ∈ p.single ∧ g / 8 ≠ v.toNat % 16384) ∧
      ((∃ g ∈ p.single, g / 8 = v.toNat % 16384) → u.pil.corr = true) ∧
      ((∃ g ∈ p.bad, g / 8 = v.toNat % 16384) → u.pil.uncorr = true ∧ (p.uncorr = false → u.pil.uncorrPg = v.toNat % 16384))) ∧
    (∀ v : W16, exec (.pilGdata v false) s = .next { s with pil := { p with hf := { p.hf with
      data := (p.hf.data.set (Fin.ofNat 64 p.hf.off) (v.setWidth 8)).set (Fin.ofNat 64 ((p.hf.off + 1) % 64)) (v.extractLsb' 8 8)
      off := ((p.hf.off + 1) % 64 + 1) % 64 } } }) ∧
    (commitRefusal s (.headframe false) p.hf.page = 0 → Memory.wf p.sram = true → ∃ u, exec (.pilCommit false) s = .next u ∧
      (∀ i : Fin 64, recorderByte s (64 * p.hf.page + i.val) = none → memGet u.pil.sram (64 * p.hf.page + i.val) = p.hf.data[i]) ∧
      (∀ a, a / 64 ≠ p.hf.page → memGet u.pil.sram a = memGet p.sram a) ∧ u.pil.refused = p.refused ∧ u.laneA = s.laneA) ∧
    (commitRefusal s (.headframe false) p.hf.page ≠ 0 → exec (.pilCommit false) s =
      .next (notifySeam { s with pil := { p with refused := true, reason := commitRefusal s (.headframe false) p.hf.page } } 3)) ∧
    (p.pfw = true → commitRefusal s (.headframe false) p.hf.page = 1) ∧
    (p.store = .none → resetUnderWay s = false → exec (.pilCmdStore false) s = .next { s with pil := { p with store := .copyDue } }) ∧
    (p.store = .none → resetUnderWay s = true → ∃ u, exec (.pilCmdStore false) s = .next u ∧ u.pil.store = .copyDue ∧ u.sys.held = true) ∧
    (p.store ≠ .none → exec (.pilCmdStore false) s = .next s) ∧
    (p.store = .copyDue → ∃ u snap, exec .retainCopy s = .next u ∧ u.pil.store = .storing (higherBank p == some false) snap ∧
      u.pil.sram = snap ∧ (higherBank p = some false → u.pil.bank1.seq = none ∧ u.pil.bank0 = p.bank0) ∧
      (higherBank p ≠ some false → u.pil.bank0.seq = none ∧ u.pil.bank1 = p.bank1) ∧ (p.bad = [] → u.laneA = s.laneA)) ∧
    (p.store ≠ .copyDue → exec .retainCopy s = .next (endTogether s)) ∧
    (∀ snap t, p.store = .storing true snap → ∃ u, exec (.pillarStoreEnd t) s = .next u ∧ u.pil.store = .none ∧
      u.pil.bank1 = ⟨some (nextStoreSeq p), p.bank1.count + 1, false, true, snap⟩ ∧ u.pil.storeT = t ∧
      (p.pfw = false → u.hf.notePillar = true) ∧ (p.pfw = true → u.hf = s.hf ∧ u.evt = s.evt) ∧
      u.pil.bank0 = p.bank0 ∧ (u.pil.pfw = true ↔ p.pfw = true ∧ p.pfwClearDue = false)) ∧
    (∀ snap t, p.store = .storing false snap → ∃ u, exec (.pillarStoreEnd t) s = .next u ∧ u.pil.store = .none ∧
      u.pil.bank0 = ⟨some (nextStoreSeq p), p.bank0.count + 1, false, true, snap⟩ ∧ u.pil.bank1 = p.bank1) ∧
    exec .vholdBelowStoreMinimum s = .next { s with pil := { p with store := .none } } ∧
    (s.asy.recovery = true ∨ handsOver s = true → ∃ u, exec .powerFailWarning s = .next u ∧ u.pil.pfw = true ∧ u.pair.role = .faulted) ∧
    (s.asy.recovery = false → handsOver s = false → s.sys.phase = .idle → p.pfw = false → p.store = .none → ∃ u,
      exec .powerFailWarning s = .next u ∧ u.pil.pfw = true ∧
      u.pil.store = .copyDue ∧ u.age.planRun = false ∧ u.laneA = s.laneA ∧ u.seq = s.seq) ∧
    (p.store = .none → exec .powerFailWarningClear s = .next { s with pil := { p with pfw := false } }) ∧
    (p.store ≠ .none → exec .powerFailWarningClear s = .next { s with pil := { p with pfwClearDue := p.pfw } }) ∧
    (scrubs s = false → ∀ fs, exec (.pillarScrub ⟨fs, []⟩) s = .next s ∧ ∀ l, exec (.laneMemoryScrub l ⟨fs, []⟩) s = .next s) ∧
    (scrubs s = true → ∀ a,
      (p.bad = [] → exec (.pillarScrub ⟨[⟨a, false⟩], []⟩) s = .next { s with pil := { p with
        corr := true, single := [], corrCnt := sat16 (if p.single = [] then p.corrCnt else sat16 p.corrCnt p.single.length) 1 } }) ∧
      (∃ u, exec (.pillarScrub ⟨[], []⟩) s = .next u ∧ u.pil.single = [] ∧ (p.bad = [] → u.pil.sram = p.sram) ∧
        (∀ g, 8 ≤ g → (g ∈ u.pil.bad ↔ g ∈ p.bad)) ∧
        (p.single ≠ [] → u.pil.corr = true) ∧ (p.bad ≠ [] → u.pil.uncorr = true)) ∧
      (∃ u, exec (.pillarScrub ⟨[⟨a, true⟩], []⟩) s = .next u ∧ u.pil.uncorr = true ∧ (64 ≤ a → a / 8 ∈ u.pil.bad) ∧
        (p.uncorr = false → p.bad = [] → u.pil.uncorrPg = a / 64)) ∧
      (∃ u, exec (.pillarScrub ⟨[], [a]⟩) s = .next u ∧ u.pil.single = [a / 8] ∧ (p.bad = [] → u.pil.sram = p.sram)) ∧
      (∀ b, b / 8 = a / 8 → ∃ u, exec (.pillarScrub ⟨[], [a, b]⟩) s = .next u ∧ a / 8 ∈ u.pil.bad ∧ u.pil.single = []) ∧
      ∀ l, ((s.lane l).bad = [] → exec (.laneMemoryScrub l ⟨[⟨a, false⟩], []⟩) s = .next (s.modLane l (fun x => { x with single := [] }))) ∧
        ((s.lane l).bad ≠ [] → ∃ u, exec (.laneMemoryScrub l ⟨[], []⟩) s = .next u ∧ u.pair.role = .faulted) ∧
        (∃ u, exec (.laneMemoryScrub l ⟨[⟨a, true⟩], []⟩) s = .next u ∧ u.pair.role = .faulted ∧ a ∈ (u.lane l).bad) ∧
        (∃ u, exec (.laneMemoryScrub l ⟨[], [.bit a]⟩) s = .next u ∧ (u.lane l).single = [a] ∧ (u.lane l).bad = (s.lane l).bad ∧
          (u.lane l).mem = (s.lane l).mem) ∧
        (∀ b, sameCheckBits b a = true → ∃ u, exec (.laneMemoryScrub l ⟨[], [.bit a, .bit b]⟩) s = .next u ∧ b ∈ (u.lane l).bad) ∧
        ∃ u, exec (.laneMemoryScrub l ⟨[], [.descriptor a]⟩) s = .next u ∧ a ∈ (u.lane l).descPar)

/-- R490, R504-R511: the backup domain. The calendar counts in steps of 1/1,024 s and carries into every field, the alarm fires at its
instant, a time or an alarm is taken whole or rejected whole, PWRON falls by its key or after 60 s locked, and a supply change locks
and unlocks the interface.
The model's choices in it: log entries 38, 42, 95. -/
def Obligations.BackupDomain : Prop :=
  ∀ (s : State),
    let b := s.bkp
    let at_ := fun (x : BkpState) => { s with bkp := x }
    (∀ u, exec .calendarTick s = .next u → u.seq = s.seq ∧ u.pil = s.pil) ∧
    (b.almEn = false → b.cal.frac < 1023 → ∃ u, exec .calendarTick s = .next u ∧ u.bkp = { b with
      cal := { b.cal with frac := b.cal.frac + 1 }, osc := (b.osc + stepCycles b) % 8000000
      trims := if 8000000 ≤ b.osc + stepCycles b then 0 else b.trims + bit (stepTrimmed b) } ∧
      u.obt.nonce = s.obt.nonce.map (fun x => (x.1, x.2 + 1)) ∧ u.tap.nonce = s.tap.nonce.map (fun x => (x.1, x.2 + 1))) ∧
    (b.cal.frac = 1023 → b.cal.second < 59 → ∃ u, exec .calendarTick s = .next u ∧
      u.bkp.cal = { b.cal with frac := 0, second := b.cal.second + 1 } ∧ u.bkp.timeValid = b.timeValid) ∧
    (b.cal = ⟨24, 2, 28, 23, 59, 59, 1023⟩ → ∃ u, exec .calendarTick s = .next u ∧ u.bkp.cal = ⟨24, 2, 29, 0, 0, 0, 0⟩) ∧
    (b.cal = ⟨100, 2, 28, 23, 59, 59, 1023⟩ → ∃ u, exec .calendarTick s = .next u ∧ u.bkp.cal = ⟨100, 3, 1, 0, 0, 0, 0⟩) ∧
    (b.cal = ⟨399, 12, 31, 23, 59, 59, 1023⟩ → ∃ u, exec .calendarTick s = .next u ∧ u.bkp.calWrap = true ∧ u.bkp.timeValid = false ∧
      u.bkp.cal = Cal.init) ∧
    (b.cal.valid = true → b.cal.frac ≤ 1023 → ∃ u, exec .calendarTick s = .next u ∧ u.bkp.cal.valid = true ∧
      (u.bkp.calWrap = false → b.cal.rank < u.bkp.cal.rank)) ∧
    (b.almEn = true → b.cal.advance.1 = b.armed → ∃ u, exec .calendarTick s = .next u ∧ u.bkp.alarm = true ∧ u.bkp.pwron = true ∧
      u.bkp.almEn = false) ∧
    (∀ v : W16, b.locked = true → exec (.bkpSetMs v false) s = .next s ∧ exec (.bkpAlmMs v false) s = .next s ∧
      exec (.bkpPwronRel false) s = .next s) ∧
    (∀ v : W16, b.locked = false → let c := stagedCal b.setYm b.setDh v
      (c.valid = true → exec (.bkpSetMs v false) s =
        .next (at_ { b with setMs := v &&& 0x3F3F#16, cal := { c with frac := 0 }, timeValid := true })) ∧
      (c.valid = false → exec (.bkpSetMs v false) s =
        .next (notifySeam (at_ { b with dateErr := true, setYm := 0, setDh := 0, setMs := 0 }) 1))) ∧
    (∀ v : W16, b.locked = false → let c := stagedCal b.almYm b.almDh v
      (c.valid = true → b.cal.rank < c.rank → exec (.bkpAlmMs v false) s =
        .next (at_ { b with almMs := v &&& 0x3F3F#16, armed := c, almEn := true })) ∧
      (c.valid = false ∨ c.rank ≤ b.cal.rank → exec (.bkpAlmMs v false) s = .next (notifySeam (at_ { b with dateErr := true }) 1))) ∧
    (b.locked = false → exec (.bkpPwronRel false) s = .next (at_ { b with pwron := false })) ∧
    (b.pwron = true → b.locked = true → exec .pwronTimeout s = .next (at_ { b with pwron := false, pwronTo := true })) ∧
    (b.pwron = false ∨ b.locked = false → exec .pwronTimeout s = .next s) ∧
    (b.locked = false → exec (.bkpCalFracRead false) s =
      .next { at_ { b with capture := b.cal } with hf := { s.hf with portIn := BitVec.ofNat 16 b.cal.frac } }) ∧
    (b.locked = true → exec (.bkpCalFracRead false) s = .next { s with hf := { s.hf with portIn := 0 } }) ∧
    exec .backupSupplySwitch s = .next (at_ { b with locked := true, vbat := true, onVbat := true }) ∧
    exec .backupSupplyReturn s = .next (at_ { b with locked := false, vbat := false }) ∧
    exec .validityLatchSet s = .next (at_ { b with latch := true }) ∧
    (b.timeValid = false ∨ b.locked = true → exec .lastTimeCommit s = .next s) ∧
    (b.timeValid = true → b.locked = false → s.pil.pfw = false → ∃ u, exec .lastTimeCommit s = .next u ∧ u.bkp = b ∧
      (Memory.wf s.pil.sram = true → ∀ i, i < 8 → memGet u.pil.sram (0x28 + i) = (lastTimeBytes b).getD i 0)) ∧
    (b.timeValid = true → b.locked = false → s.pil.pfw = true → ∃ u, exec .lastTimeCommit s = .next u ∧ u.pil.sram = s.pil.sram ∧
      u.pil.refused = true)

/-- R494, R514, R516-R519, R521-R524, R530: the event recorder. Posted events wait in the queue with their numbers, the oldest is written to the next
place of the log with its CRC, but not before the log is rebuilt, nor under the power-fail warning, which refuses the commit, windows limit the rate
and close with a SUMMARY, a full queue or log loses events and counts them, and the integrator may not post device codes.
The model's choices in it: log entries 13, 17, 92. -/
def Obligations.EventRecorder : Prop :=
  ∀ (s : State),
    let e := s.evt
    (e.queue = [] → exec .eventRecordWrite s = .next s) ∧
    (e.ready = false → s.sys.noLog = false → exec .eventRecordWrite s = .next s) ∧
    (∀ x rest, e.queue = x :: rest → s.sys.noLog = false → e.ready = true → s.pil.bad = [] →
      (∀ t, x.awaits = some t → (s.task t).phase = .opened → (s.task t).overrun = true → exec .eventRecordWrite s = .next s) ∧
      (x.awaits = none → s.pil.pfw = true → e.count < 24576 → ∃ u, exec .eventRecordWrite s = .next u ∧ u.evt = e ∧
        u.pil.sram = s.pil.sram ∧ u.pil.refused = true ∧ u.pil.reason = 1)) ∧
    (e.queue ≠ [] → s.sys.noLog = true → exec .eventRecordWrite s = .next { s with evt := { e with queue := [] } }) ∧
    (∀ x rest, e.queue = x :: rest → s.sys.noLog = false → e.ready = true → x.awaits = none → s.pil.bad = [] →
      s.pil.pfw = false → e.count < 24576 → Memory.wf s.pil.sram = true →
      ∃ u, exec .eventRecordWrite s = .next u ∧ u.evt.queue = rest ∧ u.evt.seq = e.seq + 1 ∧ u.evt.count = e.count + 1 ∧
        (u.evt.full = true ↔ e.count + 1 = 24576) ∧ logRecord u e.count = recordBytes x ∧
        (∀ i, i < e.count → logRecord u i = logRecord s i) ∧ u.evt.lost = e.lost) ∧
    (∀ x rest, e.queue = x :: rest → s.sys.noLog = false → e.ready = true → x.awaits = none → 24576 ≤ e.count →
      ∃ u, exec .eventRecordWrite s = .next u ∧ u.evt.queue.length = rest.length ∧ u.evt.lost = e.lost + 1 ∧ u.evt.count = e.count ∧
        ∀ i y, u.evt.queue[i]? = some y → y.seq = e.seq + BitVec.ofNat 32 i) ∧
    (∀ x : EvItem, (recordBytes x).length = 32 ∧ recordValid (recordBytes x) = true ∧ leAt (recordBytes x) 6 4 = x.seq.toNat ∧
      leAt (recordBytes x) 10 2 = x.code.toNat) ∧
    (∀ code, e.windows.find? (fun w => w.code == code) = none → exec (.rateWindowClose code) s = .next s) ∧
    (∀ code w, e.windows.find? (fun w => w.code == code) = some w →
      (s.seq.ut < w.closeAt → exec (.rateWindowClose code) s = .next s) ∧
      (w.closeAt ≤ s.seq.ut → w.suppressed = 0 → exec (.rateWindowClose code) s = .next { s with evt := { e with
        windows := e.windows.filter (fun x => x.code != code), suppressed := e.suppressed + 0 } }) ∧
      (w.closeAt ≤ s.seq.ut → 0 < w.suppressed → e.full = false → e.queue.length < 64 → ∃ u x,
        exec (.rateWindowClose code) s = .next u ∧ u.evt.queue = e.queue ++ [x] ∧ x.code = 0x0F01 ∧
        u.evt.suppressed = e.suppressed + BitVec.ofNat 32 w.suppressed ∧ (∀ y ∈ u.evt.windows, y.code ≠ code))) ∧
    (∀ code sev src par, e.full = false → e.queue.length < 64 → e.windows = [] → code ∈ unlimitedCodes → ∃ x, postEvent s code sev src par =
      { s with evt := { e with queue := e.queue ++ [x] } } ∧ x.code = BitVec.ofNat 16 code ∧ x.source = BitVec.ofNat 8 src ∧
        x.seq = e.seq + BitVec.ofNat 32 e.queue.length ∧ x.utime = s.seq.ut.setWidth 32) ∧
    (∀ code sev src par, e.full = false → 64 ≤ e.queue.length → e.windows = [] → code ∈ unlimitedCodes → postEvent s code sev src par =
      { s with evt := { e with lost := e.lost + 1, qovr := true } }) ∧
    (∀ code sev src par w, e.full = false → code ∉ unlimitedCodes → ownWindow s code = none → e.windows = [w] → w.code = none →
      s.seq.ut < w.closeAt → w.k ≤ w.posted → (postEvent s code sev src par).evt.queue = e.queue ∧
        ∃ w', (postEvent s code sev src par).evt.windows = [w'] ∧ w'.suppressed = w.suppressed + 1 ∧ w'.posted = w.posted) ∧
    (e.pcode.toNat < 0x1000 → portPermitted s 0x2428 true = true →
      exec (.evtPost true) s = .next { s with evt := { e with postDenied := true } }) ∧
    exec (.evtPost false) s = .next (postEvent s e.pcode.toNat e.psev.toNat 0x80 (e.ppar.toList.flatMap (fun w => leBytes 2 w.toNat))) ∧
    (∀ v : W16, (v.toNat % 32768 < e.count → ∃ u, exec (.evtRsel v false) s = .next u ∧ u.evt.rsel = v.toNat % 32768 ∧
        u.evt.rdata.length = 16 ∧ ∀ j, j < 16 → u.evt.rdata.getD j 0 = BitVec.ofNat 16 (leAt (logRecord s (v.toNat % 32768)) (2 * j) 2)) ∧
      (e.count ≤ v.toNat % 32768 → exec (.evtRsel v false) s = .next { s with evt := { e with rsel := v.toNat % 32768, rdata := [] } }))
end

