-- ==== Sys2Proof/Laws/Lane.lean ====
section
/-! SUPPORT. What the shared frame of a lane instruction does, said once: the statements about lane instructions cite these and do
not unfold `laneStep`. -/

namespace Sys2Proof.Laws

set_option Elab.async false

open Sys2Proof Sys2Proof.Machine Sys2Proof.Safety

variable {s : State} {l : LaneId} {c : Cond} {t : Task} {k : LCycle}

/-- Only an outside effect waits for a checkpoint verdict (R276). -/
@[simp] theorem effectWaits_false (s : State) (l : LaneId) : effectWaits s l false = false := rfl

/-- An instruction whose body answers retires with the flow of its body. -/
theorem laneStep_ok {d : Decoded} {body : Task → LCycle → State → Run Flow} {s1 : State} {flow : Flow}
    (hr : Ready s l t k) (hi : d.illegal = false) (hf : unmarkedFence (s.lane l) k d = false)
    (hc : condHolds c (s.ctx l) k.fc k.fw = true) (ho : oneSided s l d.effect = none) (hw : effectWaits s l d.effect = false)
    (hb : body t k s = .ok (flow, s1)) : laneStep l c d body s = retire l t flow s1 := by
  obtain ⟨h1, h2, h3⟩ := hr
  have hc' : condHolds c (s.lane l).ctx k.fc k.fw = true := hc
  simp [laneStep, attempt, h1, h2, h3, hi, hf, hc', hw, hb, ho]

/-- An instruction whose body raises an exception. -/
theorem laneStep_exc {d : Decoded} {body : Task → LCycle → State → Run Flow} {code elem : Nat} {par : Bool}
    (hr : Ready s l t k) (hi : d.illegal = false) (hf : unmarkedFence (s.lane l) k d = false)
    (hc : condHolds c (s.ctx l) k.fc k.fw = true) (hw : effectWaits s l d.effect = false)
    (hb : body t k s = .error (.exc code elem par)) : laneStep l c d body s = raise s l t code elem par := by
  obtain ⟨h1, h2, h3⟩ := hr
  have hc' : condHolds c (s.lane l).ctx k.fc k.fw = true := hc
  simp [laneStep, attempt, h1, h2, h3, hi, hf, hc', hw, hb]

/-- An instruction whose condition is false only retires (R188). -/
theorem laneStep_skip {d : Decoded} {body : Task → LCycle → State → Run Flow}
    (hr : Ready s l t k) (hi : d.illegal = false) (hf : unmarkedFence (s.lane l) k d = false)
    (hc : condHolds c (s.ctx l) k.fc k.fw = false) (ho : oneSided s l false = none) :
    laneStep l c d body s = retire l t .seq s := by
  obtain ⟨h1, h2, h3⟩ := hr
  have hc' : condHolds c (s.lane l).ctx k.fc k.fw = false := hc
  simp [laneStep, attempt, h1, h2, h3, hi, hf, hc', ho]

/-- An encoding error raises ILLEGAL_OP whatever the condition (R188). -/
theorem laneStep_illegal {d : Decoded} {body : Task → LCycle → State → Run Flow} (hr : Ready s l t k) (hi : d.illegal = true) :
    laneStep l c d body s = raise s l t 0x01 0 false := by
  obtain ⟨h1, h2, h3⟩ := hr
  simp [laneStep, attempt, h1, h2, h3, hi]

/-- A lane that may not retire does nothing. -/
theorem laneStep_idle {d : Decoded} {body : Task → LCycle → State → Run Flow} (h1 : missedCommit s l = none)
    (h2 : mayRetire s l = none) : laneStep l c d body s = s := by
  simp [laneStep, h1, h2]

/-- No instruction but a fence or a branch can be an unmarked fence (R171). -/
theorem unmarked_plain (x : Lane) (k : LCycle) (b e : Bool) : unmarkedFence x k { illegal := b, effect := e } = false := by
  simp [unmarkedFence]

/-- Only what a change makes of the registers that stand counts. -/
theorem modCtx_congr {f g : Ctx → Ctx} (h : f (s.ctx l) = g (s.ctx l)) : s.modCtx l f = s.modCtx l g := by
  cases l
  · exact congrArg (fun x => { s with laneA := { s.laneA with ctx := x } }) h
  · exact congrArg (fun x => { s with laneB := { s.laneB with ctx := x } }) h

/-- A register instruction that raises nothing retires with its registers changed. -/
theorem ctxStep_ok {f : Ctx → Except Nat Ctx} {x : Ctx} (h : Runs s l c t k) (hf : f (s.ctx l) = .ok x) :
    ctxStep l c false f s = retire l t .seq (s.modCtx l (fun _ => x)) := by
  unfold ctxStep
  refine laneStep_ok h.1 rfl (unmarked_plain _ _ _ _) h.2.1 h.2.2 rfl ?_
  have : f (s.lane l).ctx = .ok x := hf
  simp [this, State.modCtx]

/-- A register instruction that raises an exception of its own. -/
theorem ctxStep_exc {f : Ctx → Except Nat Ctx} {code : Nat} (h : Runs s l c t k) (hf : f (s.ctx l) = .error code) :
    ctxStep l c false f s = raise s l t code 0 false := by
  unfold ctxStep
  refine laneStep_exc h.1 rfl (unmarked_plain _ _ _ _) h.2.1 rfl ?_
  have : f (s.lane l).ctx = .error code := hf
  simp [this]

/-- A register instruction without exceptions, in terms of what it makes of the registers. -/
theorem regStep_ok {f g : Ctx → Ctx} (h : Runs s l c t k) (hg : f (s.ctx l) = g (s.ctx l)) :
    regStep l c false f s = retire l t .seq (s.modCtx l g) :=
  (ctxStep_ok (x := f (s.ctx l)) h rfl).trans (congrArg (retire l t .seq) (modCtx_congr (f := fun _ => f (s.ctx l)) hg))

/-- `addWith` at 36 bits in the words of R213. -/
theorem addWith_36 (a b : W36) (d : Bool) : addWith a b d = (a + b + BitVec.ofNat 36 d.toNat,
    ⟨(a + b + BitVec.ofNat 36 d.toNat).msb, (a + b + BitVec.ofNat 36 d.toNat) == 0, decide (2 ^ 36 ≤ a.toNat + b.toNat + d.toNat),
     !fits 36 (a.toInt + b.toInt + d.toNat)⟩) := by
  have hr : BitVec.ofNat 36 (a.toNat + b.toNat + d.toNat) = a + b + BitVec.ofNat 36 d.toNat := by
    apply BitVec.eq_of_toNat_eq; simp [BitVec.toNat_add]
  simp only [addWith, hr]
  congr 2
  rw [← hr]
  have := a.isLt; have := b.isLt
  rw [Bool.eq_iff_iff]
  simp only [fits, BitVec.msb_eq_decide, BitVec.toInt_eq_toNat_cond, BitVec.toNat_ofNat, Bool.and_eq_true, bne_iff_ne, ne_eq, beq_iff_eq,
    decide_eq_decide, Bool.not_eq_true', decide_eq_false_iff_not]
  have : d.toNat ≤ 1 := by cases d <;> simp
  omega

/-- `subWith` at 36 bits: C is the no-borrow convention of R185. -/
theorem subWith_36 (a b : W36) (d : Bool) : subWith a b d = (a - b - BitVec.ofNat 36 (!d).toNat,
    ⟨(a - b - BitVec.ofNat 36 (!d).toNat).msb, (a - b - BitVec.ofNat 36 (!d).toNat) == 0, decide (b.toNat + (!d).toNat ≤ a.toNat),
     !fits 36 (a.toInt - b.toInt - (!d).toNat)⟩) := by
  have e : a + ~~~b + BitVec.ofNat 36 d.toNat = a - b - BitVec.ofNat 36 (!d).toNat := by cases d <;> simp <;> bv_omega
  have hn : (~~~b).toInt = -b.toInt - 1 := by
    have := b.isLt
    simp only [BitVec.toInt_eq_toNat_cond, BitVec.toNat_not]; split <;> split <;> omega
  have hm : (~~~b).toNat = 2 ^ 36 - 1 - b.toNat := by simp
  unfold subWith
  rw [addWith_36, e, hn, hm]
  have := a.isLt; have := b.isLt
  have e1 : a.toInt + (-b.toInt - 1) + (d.toNat : Int) = a.toInt - b.toInt - (!d).toNat := by cases d <;> simp <;> omega
  rw [e1]
  congr 2
  rw [decide_eq_decide]; cases d <;> simp <;> omega

/-- `addWith` at 72 bits. -/
theorem addWith_72 (a b : W72) (d : Bool) : addWith a b d = (a + b + BitVec.ofNat 72 d.toNat,
    ⟨(a + b + BitVec.ofNat 72 d.toNat).msb, (a + b + BitVec.ofNat 72 d.toNat) == 0, decide (2 ^ 72 ≤ a.toNat + b.toNat + d.toNat),
     !fits 72 (a.toInt + b.toInt + d.toNat)⟩) := by
  have hr : BitVec.ofNat 72 (a.toNat + b.toNat + d.toNat) = a + b + BitVec.ofNat 72 d.toNat := by
    apply BitVec.eq_of_toNat_eq; simp [BitVec.toNat_add]
  simp only [addWith, hr]
  congr 2
  rw [← hr]
  have := a.isLt; have := b.isLt
  rw [Bool.eq_iff_iff]
  simp only [fits, BitVec.msb_eq_decide, BitVec.toInt_eq_toNat_cond, BitVec.toNat_ofNat, Bool.and_eq_true, bne_iff_ne, ne_eq, beq_iff_eq,
    decide_eq_decide, Bool.not_eq_true', decide_eq_false_iff_not]
  have : d.toNat ≤ 1 := by cases d <;> simp
  omega

/-- `subFlags` at 72 bits. -/
theorem subFlags_72 (a b : W72) : subFlags a b = (a - b,
    ⟨(a - b).msb, (a - b) == 0, decide (b.toNat ≤ a.toNat), !fits 72 (a.toInt - b.toInt)⟩) := by
  have e : a + ~~~b + 1#72 = a - b := by bv_omega
  have hn : (~~~b).toInt = -b.toInt - 1 := by
    have := b.isLt
    simp only [BitVec.toInt_eq_toNat_cond, BitVec.toNat_not]; split <;> split <;> omega
  have hm : (~~~b).toNat = 2 ^ 72 - 1 - b.toNat := by simp
  unfold subFlags subWith
  rw [addWith_72]
  simp only [Bool.toNat_true]
  rw [e, hn, hm]
  have := a.isLt; have := b.isLt
  have e1 : a.toInt + (-b.toInt - 1) + ((1 : Nat) : Int) = a.toInt - b.toInt := by omega
  rw [e1]
  congr 2
  rw [decide_eq_decide]; omega

end Sys2Proof.Laws
end

