-- ==== Sys2Proof/Laws/Memory.lean ====
section
/-! SUPPORT. The laws of the memories: a read after a write, what a write leaves alone, and that every memory operation keeps the
canonical form. -/

namespace Sys2Proof.Laws

set_option Elab.async false

open Sys2Proof Sys2Proof.Machine

variable {w : Nat}

/-! ### The canonical form -/

/-- A list that rises above a bound rises above a lower one. -/
theorem memRises_mono {b c : Nat} (h : c ≤ b) : ∀ {m : Mem w}, memRises (some b) m = true → memRises (some c) m = true
  | [], _ => rfl
  | (k, v) :: r, hm => by
    simp only [memRises, Bool.and_eq_true, decide_eq_true_eq] at hm ⊢
    exact ⟨⟨by omega, hm.1.2⟩, hm.2⟩

/-- A list that rises above a bound is canonical. -/
theorem wf_of_rises {b : Nat} : ∀ {m : Mem w}, memRises (some b) m = true → Memory.wf m = true
  | [], _ => rfl
  | (k, v) :: r, hm => by
    simp only [Memory.wf, memRises, Bool.and_eq_true] at hm ⊢
    exact ⟨⟨trivial, hm.1.2⟩, hm.2⟩

@[simp] theorem wf_nil : Memory.wf ([] : Mem w) = true := rfl

/-- A canonical list: its first word is not 0 and the rest rises above its address. -/
theorem wf_cons {k : Nat} {v : BitVec w} {r : Mem w} :
    Memory.wf ((k, v) :: r) = true ↔ v ≠ 0 ∧ memRises (some k) r = true := by
  simp [Memory.wf, memRises]

theorem rises_cons {b k : Nat} {v : BitVec w} {r : Mem w} :
    memRises (some b) ((k, v) :: r) = true ↔ (b < k ∧ v ≠ 0) ∧ memRises (some k) r = true := by
  simp [memRises]

/-- Below its bound a rising list reads 0. -/
theorem memGet_below {a b : Nat} (h : a ≤ b) : ∀ {m : Mem w}, memRises (some b) m = true → memGet m a = 0#w
  | [], _ => rfl
  | (k, v) :: r, hm => by
    have := (rises_cons.mp hm).1.1
    simp only [memGet]
    rw [if_neg (by omega), if_pos (by omega)]

/-! ### One word written -/

theorem memPut_rises {a : Nat} {v : BitVec w} (hv : v ≠ 0) :
    ∀ {b : Nat} {m : Mem w}, b < a → memRises (some b) m = true → memRises (some b) (memPut a v m) = true
  | b, [], hb, _ => rises_cons.mpr ⟨⟨hb, hv⟩, rfl⟩
  | b, (k, u) :: r, hb, hm => by
    obtain ⟨⟨h1, h2⟩, h3⟩ := rises_cons.mp hm
    unfold memPut
    split
    · next e => subst e; exact rises_cons.mpr ⟨⟨h1, hv⟩, h3⟩
    · split
      · next e => exact rises_cons.mpr ⟨⟨hb, hv⟩, rises_cons.mpr ⟨⟨e, h2⟩, h3⟩⟩
      · exact rises_cons.mpr ⟨⟨h1, h2⟩, memPut_rises hv (by omega) h3⟩

theorem memErase_rises {a : Nat} : ∀ {b : Nat} {m : Mem w}, memRises (some b) m = true → memRises (some b) (memErase a m) = true
  | _, [], _ => rfl
  | b, (k, u) :: r, hm => by
    obtain ⟨⟨h1, h2⟩, h3⟩ := rises_cons.mp hm
    unfold memErase
    split
    · exact memRises_mono (by omega) h3
    · split
      · exact hm
      · exact rises_cons.mpr ⟨⟨h1, h2⟩, memErase_rises h3⟩

/-- A write keeps the canonical form. -/
theorem wf_memSet {m : Mem w} {a : Nat} {v : BitVec w} (hm : Memory.wf m = true) : Memory.wf (memSet m a v) = true := by
  unfold memSet
  split
  · cases m with
    | nil => rfl
    | cons p r =>
      obtain ⟨k, u⟩ := p
      obtain ⟨h2, h3⟩ := wf_cons.mp hm
      unfold memErase
      split
      · exact wf_of_rises h3
      · split
        · exact hm
        · exact wf_cons.mpr ⟨h2, memErase_rises h3⟩
  · next hv =>
    cases m with
    | nil => exact wf_cons.mpr ⟨hv, rfl⟩
    | cons p r =>
      obtain ⟨k, u⟩ := p
      obtain ⟨h2, h3⟩ := wf_cons.mp hm
      unfold memPut
      split
      · next e => subst e; exact wf_cons.mpr ⟨hv, h3⟩
      · split
        · next e => exact wf_cons.mpr ⟨hv, rises_cons.mpr ⟨⟨e, h2⟩, h3⟩⟩
        · exact wf_cons.mpr ⟨h2, memPut_rises hv (by omega) h3⟩

theorem memGet_memPut {a b : Nat} {v : BitVec w} : ∀ {m : Mem w}, memGet (memPut a v m) b = if b = a then v else memGet m b
  | [] => by simp only [memPut, memGet]; split <;> simp
  | (k, u) :: r => by
    unfold memPut
    split
    · next e => subst e; simp only [memGet]; split <;> rfl
    · split
      · simp only [memGet]
        split
        · rfl
        · split
          · next h1 h2 => rw [if_neg (by omega), if_pos (by omega)]
          · rfl
      · simp only [memGet, memGet_memPut (m := r)]
        split
        · next h1 h2 => rw [if_neg (by omega)]
        · split
          · next h1 h2 => rw [if_neg (by omega)]
          · rfl

theorem memGet_memErase {a b : Nat} : ∀ {m : Mem w}, Memory.wf m = true → memGet (memErase a m) b = if b = a then 0#w else memGet m b
  | [], _ => by simp [memErase, memGet]
  | (k, u) :: r, hm => by
    obtain ⟨_, h3⟩ := wf_cons.mp hm
    unfold memErase
    split
    · next e =>
      subst e
      simp only [memGet]
      split
      · next e => subst e; exact memGet_below (Nat.le_refl _) h3
      · split
        · exact memGet_below (by omega) h3
        · rfl
    · split
      · simp only [memGet]
        by_cases e : b = a
        · subst e; rw [if_neg (by omega), if_pos (by omega), if_pos rfl]
        · rw [if_neg e]
      · simp only [memGet, memGet_memErase (m := r) (wf_of_rises h3)]
        split
        · rw [if_neg (by omega)]
        · split
          · rw [if_neg (by omega)]
          · rfl

/-- A read after a write: the word written at its address, every other word as before. -/
theorem memGet_memSet {m : Mem w} {a b : Nat} {v : BitVec w} (hm : Memory.wf m = true) :
    memGet (memSet m a v) b = if b = a then v else memGet m b := by
  unfold memSet
  split
  · next e => subst e; exact memGet_memErase hm
  · exact memGet_memPut

@[simp] theorem memGet_memSet_same {m : Mem w} {a : Nat} {v : BitVec w} (hm : Memory.wf m = true) :
    memGet (memSet m a v) a = v := by rw [memGet_memSet hm, if_pos rfl]

theorem memGet_memSet_other {m : Mem w} {a b : Nat} {v : BitVec w} (hm : Memory.wf m = true) (h : b ≠ a) :
    memGet (memSet m a v) b = memGet m b := by rw [memGet_memSet hm, if_neg h]

/-- Two canonical memories that read alike are the same list. -/
theorem wf_ext : ∀ {m n : Mem w}, Memory.wf m = true → Memory.wf n = true → (∀ a, memGet m a = memGet n a) → m = n
  | [], [], _, _, _ => rfl
  | [], (k, v) :: r, _, hn, h => by
    have := h k; simp only [memGet, if_true] at this
    exact absurd this.symm (wf_cons.mp hn).1
  | (k, v) :: r, [], hm, _, h => by
    have := h k; simp only [memGet, if_true] at this
    exact absurd this (wf_cons.mp hm).1
  | (k, v) :: r, (j, u) :: q, hm, hn, h => by
    obtain ⟨hv, hr⟩ := wf_cons.mp hm
    obtain ⟨hu, hq⟩ := wf_cons.mp hn
    have hkj : k = j := by
      rcases Nat.lt_trichotomy k j with e | e | e
      · have := h k; simp only [memGet, if_true] at this
        rw [if_neg (by omega), if_pos e] at this; exact absurd this hv
      · exact e
      · have := h j; simp only [memGet, if_true] at this
        rw [if_neg (by omega), if_pos e] at this; exact absurd this.symm hu
    subst hkj
    have hvu : v = u := by have := h k; simpa [memGet] using this
    subst hvu
    congr 1
    refine wf_ext (wf_of_rises hr) (wf_of_rises hq) (fun a => ?_)
    rcases Nat.lt_or_ge k a with e | e
    · have := h a; simp only [memGet] at this
      rwa [if_neg (by omega), if_neg (by omega), if_neg (by omega), if_neg (by omega)] at this
    · rw [memGet_below e hr, memGet_below e hq]

/-! ### Several words written -/

/-- Writing words keeps the canonical form. -/
theorem wf_memWrites {ws : List (Nat × BitVec w)} : ∀ {m : Mem w}, Memory.wf m = true → Memory.wf (memWrites m ws) = true := by
  induction ws with
  | nil => exact fun h => h
  | cons p r ih => exact fun h => ih (wf_memSet h)

theorem wf_memWriteSeq {m : Mem w} {a : Nat} {vs : List (BitVec w)} (hm : Memory.wf m = true) :
    Memory.wf (memWriteSeq m a vs) = true := wf_memWrites hm

/-- Words whose addresses are not written read as before. -/
theorem memGet_memWrites_other {ws : List (Nat × BitVec w)} {b : Nat} :
    ∀ {m : Mem w}, Memory.wf m = true → (∀ p ∈ ws, p.1 ≠ b) → memGet (memWrites m ws) b = memGet m b := by
  induction ws with
  | nil => exact fun _ _ => rfl
  | cons p r ih =>
    intro m hm h
    show memGet (memWrites (memSet m p.1 p.2) r) b = _
    rw [ih (wf_memSet hm) (fun q hq => h q (List.mem_cons_of_mem _ hq)),
      memGet_memSet_other hm (Ne.symm (h p List.mem_cons_self))]

/-- Consecutive words written, one word more at the end. -/
theorem memWriteSeq_append {m : Mem w} {a : Nat} {vs : List (BitVec w)} {v : BitVec w} :
    memWriteSeq m a (vs ++ [v]) = memSet (memWriteSeq m a vs) (a + vs.length) v := by
  have e : (List.range (vs ++ [v]).length).zipWith (fun i v => (a + i, v)) (vs ++ [v]) =
      (List.range vs.length).zipWith (fun i v => (a + i, v)) vs ++ [(a + vs.length, v)] := by
    rw [List.length_append, List.length_singleton, List.range_succ, List.zipWith_append (by simp)]
    rfl
  unfold memWriteSeq
  rw [e, memWrites, List.foldl_append]
  rfl

/-- What consecutive words read as after they are written, and that every other word reads as before. -/
theorem memGet_memWriteSeq {m : Mem w} {a b : Nat} (hm : Memory.wf m = true) (vs : List (BitVec w)) :
    memGet (memWriteSeq m a vs) b = if a ≤ b ∧ b < a + vs.length then vs.getD (b - a) 0#w else memGet m b := by
  have key : ∀ us : List (BitVec w), memGet (memWriteSeq m a us.reverse) b =
      if a ≤ b ∧ b < a + us.reverse.length then us.reverse.getD (b - a) 0#w else memGet m b := by
    intro us
    induction us with
    | nil => rw [if_neg (by rw [List.reverse_nil, List.length_nil]; omega)]; rfl
    | cons v r ih =>
      rw [List.reverse_cons, memWriteSeq_append, memGet_memSet (wf_memWriteSeq hm), ih]
      by_cases hb : b = a + r.reverse.length
      · subst hb
        rw [if_pos rfl, if_pos (by simp)]
        simp
      · rw [if_neg hb]
        by_cases hi : a ≤ b ∧ b < a + r.reverse.length
        · rw [if_pos hi, if_pos (by simp only [List.length_append, List.length_singleton]; omega)]
          rw [List.getD_eq_getElem?_getD, List.getD_eq_getElem?_getD, List.getElem?_append_left (by omega)]
        · rw [if_neg hi, if_neg (by simp only [List.length_append, List.length_singleton]; omega)]
  have := key vs.reverse
  rwa [List.reverse_reverse] at this

@[simp] theorem memWords_length {m : Mem w} {a n : Nat} : (memWords m a n).length = n := by simp [memWords]

theorem memWords_getD {m : Mem w} {a n i : Nat} (h : i < n) : (memWords m a n).getD i 0#w = memGet m (a + i) := by
  simp [memWords, List.getD_eq_getElem?_getD, h]

/-- Consecutive words read back as they were written. -/
theorem memWords_memWriteSeq {m : Mem w} {a : Nat} (hm : Memory.wf m = true) (vs : List (BitVec w)) :
    memWords (memWriteSeq m a vs) a vs.length = vs := by
  apply List.ext_getElem
  · simp
  · intro i h1 h2
    simp only [memWords, List.getElem_map, List.getElem_range]
    rw [memGet_memWriteSeq hm, if_pos (by omega)]
    simp [List.getD_eq_getElem?_getD, h2]

/-- Words that do not overlap those written. -/
theorem memWords_memWriteSeq_other {m : Mem w} {a b n : Nat} (hm : Memory.wf m = true) {vs : List (BitVec w)}
    (h : b + n ≤ a ∨ a + vs.length ≤ b) : memWords (memWriteSeq m a vs) b n = memWords m b n := by
  unfold memWords
  refine List.map_congr_left (fun i hi => ?_)
  have := List.mem_range.mp hi
  rw [memGet_memWriteSeq hm, if_neg (by omega)]

/-! ### Message RAM by bytes -/

theorem wf_msgPutByte {m : Mem 16} {a : Nat} {b : Byte} (hm : Memory.wf m = true) : Memory.wf (msgPutByte m a b) = true :=
  wf_memSet hm

/-- Bytes written to message RAM keep the canonical form. -/
theorem wf_msgPut {m : Mem 16} {a : Nat} {bs : List Byte} (hm : Memory.wf m = true) : Memory.wf (msgPut m a bs) = true := by
  unfold msgPut
  generalize (List.range bs.length).zip bs = ps
  induction ps generalizing m with
  | nil => exact hm
  | cons p r ih => exact ih (wf_msgPutByte hm)

/-- A word that holds none of the bytes written reads as before. -/
theorem memGet_msgPutByte_other {m : Mem 16} {a k : Nat} {b : Byte} (hm : Memory.wf m = true) (h : k ≠ a / 2) :
    memGet (msgPutByte m a b) k = memGet m k := memGet_memSet_other hm h

end Sys2Proof.Laws
end

