-- ==== Sys2Proof/Laws/State.lean ====
section
/-! SUPPORT. What each named update of the state does to each field, so that no proof unfolds a record update. -/

namespace Sys2Proof.Laws

open Sys2Proof Sys2Proof.Machine

variable (s : State)

/-! ### modSys -/

section

variable (f : SysState → SysState)

@[simp] theorem modSys_sys : (s.modSys f).sys = f s.sys := rfl
@[simp] theorem modSys_cht : (s.modSys f).cht = s.cht := rfl
@[simp] theorem modSys_clk : (s.modSys f).clk = s.clk := rfl
@[simp] theorem modSys_seam : (s.modSys f).seam = s.seam := rfl
@[simp] theorem modSys_seq : (s.modSys f).seq = s.seq := rfl
@[simp] theorem modSys_laneA : (s.modSys f).laneA = s.laneA := rfl
@[simp] theorem modSys_laneB : (s.modSys f).laneB = s.laneB := rfl
@[simp] theorem modSys_tram : (s.modSys f).tram = s.tram := rfl
@[simp] theorem modSys_asy : (s.modSys f).asy = s.asy := rfl
@[simp] theorem modSys_tly : (s.modSys f).tly = s.tly := rfl
@[simp] theorem modSys_wdt : (s.modSys f).wdt = s.wdt := rfl
@[simp] theorem modSys_pair : (s.modSys f).pair = s.pair := rfl
@[simp] theorem modSys_hf : (s.modSys f).hf = s.hf := rfl
@[simp] theorem modSys_msg : (s.modSys f).msg = s.msg := rfl
@[simp] theorem modSys_fld : (s.modSys f).fld = s.fld := rfl
@[simp] theorem modSys_fd : (s.modSys f).fd = s.fd := rfl
@[simp] theorem modSys_mb : (s.modSys f).mb = s.mb := rfl
@[simp] theorem modSys_ing : (s.modSys f).ing = s.ing := rfl
@[simp] theorem modSys_host : (s.modSys f).host = s.host := rfl
@[simp] theorem modSys_obt : (s.modSys f).obt = s.obt := rfl
@[simp] theorem modSys_age : (s.modSys f).age = s.age := rfl
@[simp] theorem modSys_hlt : (s.modSys f).hlt = s.hlt := rfl
@[simp] theorem modSys_pil : (s.modSys f).pil = s.pil := rfl
@[simp] theorem modSys_bkp : (s.modSys f).bkp = s.bkp := rfl
@[simp] theorem modSys_evt : (s.modSys f).evt = s.evt := rfl
@[simp] theorem modSys_fuses : (s.modSys f).fuses = s.fuses := rfl
@[simp] theorem modSys_flash : (s.modSys f).flash = s.flash := rfl
@[simp] theorem modSys_xsp : (s.modSys f).xsp = s.xsp := rfl
@[simp] theorem modSys_sec : (s.modSys f).sec = s.sec := rfl
@[simp] theorem modSys_tap : (s.modSys f).tap = s.tap := rfl
@[simp] theorem modSys_sup : (s.modSys f).sup = s.sup := rfl
@[simp] theorem modSys_unitFault : (s.modSys f).unitFault = s.unitFault := rfl
@[simp] theorem modSys_free : (s.modSys f).free = s.free := rfl
@[simp] theorem modSys_pending : (s.modSys f).pending = s.pending := rfl

end

/-! ### modClk -/

section

variable (f : ClkState → ClkState)

@[simp] theorem modClk_clk : (s.modClk f).clk = f s.clk := rfl
@[simp] theorem modClk_sys : (s.modClk f).sys = s.sys := rfl
@[simp] theorem modClk_cht : (s.modClk f).cht = s.cht := rfl
@[simp] theorem modClk_seam : (s.modClk f).seam = s.seam := rfl
@[simp] theorem modClk_seq : (s.modClk f).seq = s.seq := rfl
@[simp] theorem modClk_laneA : (s.modClk f).laneA = s.laneA := rfl
@[simp] theorem modClk_laneB : (s.modClk f).laneB = s.laneB := rfl
@[simp] theorem modClk_tram : (s.modClk f).tram = s.tram := rfl
@[simp] theorem modClk_asy : (s.modClk f).asy = s.asy := rfl
@[simp] theorem modClk_tly : (s.modClk f).tly = s.tly := rfl
@[simp] theorem modClk_wdt : (s.modClk f).wdt = s.wdt := rfl
@[simp] theorem modClk_pair : (s.modClk f).pair = s.pair := rfl
@[simp] theorem modClk_hf : (s.modClk f).hf = s.hf := rfl
@[simp] theorem modClk_msg : (s.modClk f).msg = s.msg := rfl
@[simp] theorem modClk_fld : (s.modClk f).fld = s.fld := rfl
@[simp] theorem modClk_fd : (s.modClk f).fd = s.fd := rfl
@[simp] theorem modClk_mb : (s.modClk f).mb = s.mb := rfl
@[simp] theorem modClk_ing : (s.modClk f).ing = s.ing := rfl
@[simp] theorem modClk_host : (s.modClk f).host = s.host := rfl
@[simp] theorem modClk_obt : (s.modClk f).obt = s.obt := rfl
@[simp] theorem modClk_age : (s.modClk f).age = s.age := rfl
@[simp] theorem modClk_hlt : (s.modClk f).hlt = s.hlt := rfl
@[simp] theorem modClk_pil : (s.modClk f).pil = s.pil := rfl
@[simp] theorem modClk_bkp : (s.modClk f).bkp = s.bkp := rfl
@[simp] theorem modClk_evt : (s.modClk f).evt = s.evt := rfl
@[simp] theorem modClk_fuses : (s.modClk f).fuses = s.fuses := rfl
@[simp] theorem modClk_flash : (s.modClk f).flash = s.flash := rfl
@[simp] theorem modClk_xsp : (s.modClk f).xsp = s.xsp := rfl
@[simp] theorem modClk_sec : (s.modClk f).sec = s.sec := rfl
@[simp] theorem modClk_tap : (s.modClk f).tap = s.tap := rfl
@[simp] theorem modClk_sup : (s.modClk f).sup = s.sup := rfl
@[simp] theorem modClk_unitFault : (s.modClk f).unitFault = s.unitFault := rfl
@[simp] theorem modClk_free : (s.modClk f).free = s.free := rfl
@[simp] theorem modClk_pending : (s.modClk f).pending = s.pending := rfl

end

/-! ### modSeam -/

section

variable (f : SeamState → SeamState)

@[simp] theorem modSeam_seam : (s.modSeam f).seam = f s.seam := rfl
@[simp] theorem modSeam_sys : (s.modSeam f).sys = s.sys := rfl
@[simp] theorem modSeam_cht : (s.modSeam f).cht = s.cht := rfl
@[simp] theorem modSeam_clk : (s.modSeam f).clk = s.clk := rfl
@[simp] theorem modSeam_seq : (s.modSeam f).seq = s.seq := rfl
@[simp] theorem modSeam_laneA : (s.modSeam f).laneA = s.laneA := rfl
@[simp] theorem modSeam_laneB : (s.modSeam f).laneB = s.laneB := rfl
@[simp] theorem modSeam_tram : (s.modSeam f).tram = s.tram := rfl
@[simp] theorem modSeam_asy : (s.modSeam f).asy = s.asy := rfl
@[simp] theorem modSeam_tly : (s.modSeam f).tly = s.tly := rfl
@[simp] theorem modSeam_wdt : (s.modSeam f).wdt = s.wdt := rfl
@[simp] theorem modSeam_pair : (s.modSeam f).pair = s.pair := rfl
@[simp] theorem modSeam_hf : (s.modSeam f).hf = s.hf := rfl
@[simp] theorem modSeam_msg : (s.modSeam f).msg = s.msg := rfl
@[simp] theorem modSeam_fld : (s.modSeam f).fld = s.fld := rfl
@[simp] theorem modSeam_fd : (s.modSeam f).fd = s.fd := rfl
@[simp] theorem modSeam_mb : (s.modSeam f).mb = s.mb := rfl
@[simp] theorem modSeam_ing : (s.modSeam f).ing = s.ing := rfl
@[simp] theorem modSeam_host : (s.modSeam f).host = s.host := rfl
@[simp] theorem modSeam_obt : (s.modSeam f).obt = s.obt := rfl
@[simp] theorem modSeam_age : (s.modSeam f).age = s.age := rfl
@[simp] theorem modSeam_hlt : (s.modSeam f).hlt = s.hlt := rfl
@[simp] theorem modSeam_pil : (s.modSeam f).pil = s.pil := rfl
@[simp] theorem modSeam_bkp : (s.modSeam f).bkp = s.bkp := rfl
@[simp] theorem modSeam_evt : (s.modSeam f).evt = s.evt := rfl
@[simp] theorem modSeam_fuses : (s.modSeam f).fuses = s.fuses := rfl
@[simp] theorem modSeam_flash : (s.modSeam f).flash = s.flash := rfl
@[simp] theorem modSeam_xsp : (s.modSeam f).xsp = s.xsp := rfl
@[simp] theorem modSeam_sec : (s.modSeam f).sec = s.sec := rfl
@[simp] theorem modSeam_tap : (s.modSeam f).tap = s.tap := rfl
@[simp] theorem modSeam_sup : (s.modSeam f).sup = s.sup := rfl
@[simp] theorem modSeam_unitFault : (s.modSeam f).unitFault = s.unitFault := rfl
@[simp] theorem modSeam_free : (s.modSeam f).free = s.free := rfl
@[simp] theorem modSeam_pending : (s.modSeam f).pending = s.pending := rfl

end

/-! ### modWdt -/

section

variable (f : WdtState → WdtState)

@[simp] theorem modWdt_wdt : (s.modWdt f).wdt = f s.wdt := rfl
@[simp] theorem modWdt_sys : (s.modWdt f).sys = s.sys := rfl
@[simp] theorem modWdt_cht : (s.modWdt f).cht = s.cht := rfl
@[simp] theorem modWdt_clk : (s.modWdt f).clk = s.clk := rfl
@[simp] theorem modWdt_seam : (s.modWdt f).seam = s.seam := rfl
@[simp] theorem modWdt_seq : (s.modWdt f).seq = s.seq := rfl
@[simp] theorem modWdt_laneA : (s.modWdt f).laneA = s.laneA := rfl
@[simp] theorem modWdt_laneB : (s.modWdt f).laneB = s.laneB := rfl
@[simp] theorem modWdt_tram : (s.modWdt f).tram = s.tram := rfl
@[simp] theorem modWdt_asy : (s.modWdt f).asy = s.asy := rfl
@[simp] theorem modWdt_tly : (s.modWdt f).tly = s.tly := rfl
@[simp] theorem modWdt_pair : (s.modWdt f).pair = s.pair := rfl
@[simp] theorem modWdt_hf : (s.modWdt f).hf = s.hf := rfl
@[simp] theorem modWdt_msg : (s.modWdt f).msg = s.msg := rfl
@[simp] theorem modWdt_fld : (s.modWdt f).fld = s.fld := rfl
@[simp] theorem modWdt_fd : (s.modWdt f).fd = s.fd := rfl
@[simp] theorem modWdt_mb : (s.modWdt f).mb = s.mb := rfl
@[simp] theorem modWdt_ing : (s.modWdt f).ing = s.ing := rfl
@[simp] theorem modWdt_host : (s.modWdt f).host = s.host := rfl
@[simp] theorem modWdt_obt : (s.modWdt f).obt = s.obt := rfl
@[simp] theorem modWdt_age : (s.modWdt f).age = s.age := rfl
@[simp] theorem modWdt_hlt : (s.modWdt f).hlt = s.hlt := rfl
@[simp] theorem modWdt_pil : (s.modWdt f).pil = s.pil := rfl
@[simp] theorem modWdt_bkp : (s.modWdt f).bkp = s.bkp := rfl
@[simp] theorem modWdt_evt : (s.modWdt f).evt = s.evt := rfl
@[simp] theorem modWdt_fuses : (s.modWdt f).fuses = s.fuses := rfl
@[simp] theorem modWdt_flash : (s.modWdt f).flash = s.flash := rfl
@[simp] theorem modWdt_xsp : (s.modWdt f).xsp = s.xsp := rfl
@[simp] theorem modWdt_sec : (s.modWdt f).sec = s.sec := rfl
@[simp] theorem modWdt_tap : (s.modWdt f).tap = s.tap := rfl
@[simp] theorem modWdt_sup : (s.modWdt f).sup = s.sup := rfl
@[simp] theorem modWdt_unitFault : (s.modWdt f).unitFault = s.unitFault := rfl
@[simp] theorem modWdt_free : (s.modWdt f).free = s.free := rfl
@[simp] theorem modWdt_pending : (s.modWdt f).pending = s.pending := rfl

end

/-! ### modPair -/

section

variable (f : PairState → PairState)

@[simp] theorem modPair_pair : (s.modPair f).pair = f s.pair := rfl
@[simp] theorem modPair_sys : (s.modPair f).sys = s.sys := rfl
@[simp] theorem modPair_cht : (s.modPair f).cht = s.cht := rfl
@[simp] theorem modPair_clk : (s.modPair f).clk = s.clk := rfl
@[simp] theorem modPair_seam : (s.modPair f).seam = s.seam := rfl
@[simp] theorem modPair_seq : (s.modPair f).seq = s.seq := rfl
@[simp] theorem modPair_laneA : (s.modPair f).laneA = s.laneA := rfl
@[simp] theorem modPair_laneB : (s.modPair f).laneB = s.laneB := rfl
@[simp] theorem modPair_tram : (s.modPair f).tram = s.tram := rfl
@[simp] theorem modPair_asy : (s.modPair f).asy = s.asy := rfl
@[simp] theorem modPair_tly : (s.modPair f).tly = s.tly := rfl
@[simp] theorem modPair_wdt : (s.modPair f).wdt = s.wdt := rfl
@[simp] theorem modPair_hf : (s.modPair f).hf = s.hf := rfl
@[simp] theorem modPair_msg : (s.modPair f).msg = s.msg := rfl
@[simp] theorem modPair_fld : (s.modPair f).fld = s.fld := rfl
@[simp] theorem modPair_fd : (s.modPair f).fd = s.fd := rfl
@[simp] theorem modPair_mb : (s.modPair f).mb = s.mb := rfl
@[simp] theorem modPair_ing : (s.modPair f).ing = s.ing := rfl
@[simp] theorem modPair_host : (s.modPair f).host = s.host := rfl
@[simp] theorem modPair_obt : (s.modPair f).obt = s.obt := rfl
@[simp] theorem modPair_age : (s.modPair f).age = s.age := rfl
@[simp] theorem modPair_hlt : (s.modPair f).hlt = s.hlt := rfl
@[simp] theorem modPair_pil : (s.modPair f).pil = s.pil := rfl
@[simp] theorem modPair_bkp : (s.modPair f).bkp = s.bkp := rfl
@[simp] theorem modPair_evt : (s.modPair f).evt = s.evt := rfl
@[simp] theorem modPair_fuses : (s.modPair f).fuses = s.fuses := rfl
@[simp] theorem modPair_flash : (s.modPair f).flash = s.flash := rfl
@[simp] theorem modPair_xsp : (s.modPair f).xsp = s.xsp := rfl
@[simp] theorem modPair_sec : (s.modPair f).sec = s.sec := rfl
@[simp] theorem modPair_tap : (s.modPair f).tap = s.tap := rfl
@[simp] theorem modPair_sup : (s.modPair f).sup = s.sup := rfl
@[simp] theorem modPair_unitFault : (s.modPair f).unitFault = s.unitFault := rfl
@[simp] theorem modPair_free : (s.modPair f).free = s.free := rfl
@[simp] theorem modPair_pending : (s.modPair f).pending = s.pending := rfl

end

/-! ### modHf -/

section

variable (f : HfState → HfState)

@[simp] theorem modHf_hf : (s.modHf f).hf = f s.hf := rfl
@[simp] theorem modHf_sys : (s.modHf f).sys = s.sys := rfl
@[simp] theorem modHf_cht : (s.modHf f).cht = s.cht := rfl
@[simp] theorem modHf_clk : (s.modHf f).clk = s.clk := rfl
@[simp] theorem modHf_seam : (s.modHf f).seam = s.seam := rfl
@[simp] theorem modHf_seq : (s.modHf f).seq = s.seq := rfl
@[simp] theorem modHf_laneA : (s.modHf f).laneA = s.laneA := rfl
@[simp] theorem modHf_laneB : (s.modHf f).laneB = s.laneB := rfl
@[simp] theorem modHf_tram : (s.modHf f).tram = s.tram := rfl
@[simp] theorem modHf_asy : (s.modHf f).asy = s.asy := rfl
@[simp] theorem modHf_tly : (s.modHf f).tly = s.tly := rfl
@[simp] theorem modHf_wdt : (s.modHf f).wdt = s.wdt := rfl
@[simp] theorem modHf_pair : (s.modHf f).pair = s.pair := rfl
@[simp] theorem modHf_msg : (s.modHf f).msg = s.msg := rfl
@[simp] theorem modHf_fld : (s.modHf f).fld = s.fld := rfl
@[simp] theorem modHf_fd : (s.modHf f).fd = s.fd := rfl
@[simp] theorem modHf_mb : (s.modHf f).mb = s.mb := rfl
@[simp] theorem modHf_ing : (s.modHf f).ing = s.ing := rfl
@[simp] theorem modHf_host : (s.modHf f).host = s.host := rfl
@[simp] theorem modHf_obt : (s.modHf f).obt = s.obt := rfl
@[simp] theorem modHf_age : (s.modHf f).age = s.age := rfl
@[simp] theorem modHf_hlt : (s.modHf f).hlt = s.hlt := rfl
@[simp] theorem modHf_pil : (s.modHf f).pil = s.pil := rfl
@[simp] theorem modHf_bkp : (s.modHf f).bkp = s.bkp := rfl
@[simp] theorem modHf_evt : (s.modHf f).evt = s.evt := rfl
@[simp] theorem modHf_fuses : (s.modHf f).fuses = s.fuses := rfl
@[simp] theorem modHf_flash : (s.modHf f).flash = s.flash := rfl
@[simp] theorem modHf_xsp : (s.modHf f).xsp = s.xsp := rfl
@[simp] theorem modHf_sec : (s.modHf f).sec = s.sec := rfl
@[simp] theorem modHf_tap : (s.modHf f).tap = s.tap := rfl
@[simp] theorem modHf_sup : (s.modHf f).sup = s.sup := rfl
@[simp] theorem modHf_unitFault : (s.modHf f).unitFault = s.unitFault := rfl
@[simp] theorem modHf_free : (s.modHf f).free = s.free := rfl
@[simp] theorem modHf_pending : (s.modHf f).pending = s.pending := rfl

end

/-! ### modFld -/

section

variable (f : FldState → FldState)

@[simp] theorem modFld_fld : (s.modFld f).fld = f s.fld := rfl
@[simp] theorem modFld_sys : (s.modFld f).sys = s.sys := rfl
@[simp] theorem modFld_cht : (s.modFld f).cht = s.cht := rfl
@[simp] theorem modFld_clk : (s.modFld f).clk = s.clk := rfl
@[simp] theorem modFld_seam : (s.modFld f).seam = s.seam := rfl
@[simp] theorem modFld_seq : (s.modFld f).seq = s.seq := rfl
@[simp] theorem modFld_laneA : (s.modFld f).laneA = s.laneA := rfl
@[simp] theorem modFld_laneB : (s.modFld f).laneB = s.laneB := rfl
@[simp] theorem modFld_tram : (s.modFld f).tram = s.tram := rfl
@[simp] theorem modFld_asy : (s.modFld f).asy = s.asy := rfl
@[simp] theorem modFld_tly : (s.modFld f).tly = s.tly := rfl
@[simp] theorem modFld_wdt : (s.modFld f).wdt = s.wdt := rfl
@[simp] theorem modFld_pair : (s.modFld f).pair = s.pair := rfl
@[simp] theorem modFld_hf : (s.modFld f).hf = s.hf := rfl
@[simp] theorem modFld_msg : (s.modFld f).msg = s.msg := rfl
@[simp] theorem modFld_fd : (s.modFld f).fd = s.fd := rfl
@[simp] theorem modFld_mb : (s.modFld f).mb = s.mb := rfl
@[simp] theorem modFld_ing : (s.modFld f).ing = s.ing := rfl
@[simp] theorem modFld_host : (s.modFld f).host = s.host := rfl
@[simp] theorem modFld_obt : (s.modFld f).obt = s.obt := rfl
@[simp] theorem modFld_age : (s.modFld f).age = s.age := rfl
@[simp] theorem modFld_hlt : (s.modFld f).hlt = s.hlt := rfl
@[simp] theorem modFld_pil : (s.modFld f).pil = s.pil := rfl
@[simp] theorem modFld_bkp : (s.modFld f).bkp = s.bkp := rfl
@[simp] theorem modFld_evt : (s.modFld f).evt = s.evt := rfl
@[simp] theorem modFld_fuses : (s.modFld f).fuses = s.fuses := rfl
@[simp] theorem modFld_flash : (s.modFld f).flash = s.flash := rfl
@[simp] theorem modFld_xsp : (s.modFld f).xsp = s.xsp := rfl
@[simp] theorem modFld_sec : (s.modFld f).sec = s.sec := rfl
@[simp] theorem modFld_tap : (s.modFld f).tap = s.tap := rfl
@[simp] theorem modFld_sup : (s.modFld f).sup = s.sup := rfl
@[simp] theorem modFld_unitFault : (s.modFld f).unitFault = s.unitFault := rfl
@[simp] theorem modFld_free : (s.modFld f).free = s.free := rfl
@[simp] theorem modFld_pending : (s.modFld f).pending = s.pending := rfl

end

/-! ### modFd -/

section

variable (f : FdState → FdState)

@[simp] theorem modFd_fd : (s.modFd f).fd = f s.fd := rfl
@[simp] theorem modFd_sys : (s.modFd f).sys = s.sys := rfl
@[simp] theorem modFd_cht : (s.modFd f).cht = s.cht := rfl
@[simp] theorem modFd_clk : (s.modFd f).clk = s.clk := rfl
@[simp] theorem modFd_seam : (s.modFd f).seam = s.seam := rfl
@[simp] theorem modFd_seq : (s.modFd f).seq = s.seq := rfl
@[simp] theorem modFd_laneA : (s.modFd f).laneA = s.laneA := rfl
@[simp] theorem modFd_laneB : (s.modFd f).laneB = s.laneB := rfl
@[simp] theorem modFd_tram : (s.modFd f).tram = s.tram := rfl
@[simp] theorem modFd_asy : (s.modFd f).asy = s.asy := rfl
@[simp] theorem modFd_tly : (s.modFd f).tly = s.tly := rfl
@[simp] theorem modFd_wdt : (s.modFd f).wdt = s.wdt := rfl
@[simp] theorem modFd_pair : (s.modFd f).pair = s.pair := rfl
@[simp] theorem modFd_hf : (s.modFd f).hf = s.hf := rfl
@[simp] theorem modFd_msg : (s.modFd f).msg = s.msg := rfl
@[simp] theorem modFd_fld : (s.modFd f).fld = s.fld := rfl
@[simp] theorem modFd_mb : (s.modFd f).mb = s.mb := rfl
@[simp] theorem modFd_ing : (s.modFd f).ing = s.ing := rfl
@[simp] theorem modFd_host : (s.modFd f).host = s.host := rfl
@[simp] theorem modFd_obt : (s.modFd f).obt = s.obt := rfl
@[simp] theorem modFd_age : (s.modFd f).age = s.age := rfl
@[simp] theorem modFd_hlt : (s.modFd f).hlt = s.hlt := rfl
@[simp] theorem modFd_pil : (s.modFd f).pil = s.pil := rfl
@[simp] theorem modFd_bkp : (s.modFd f).bkp = s.bkp := rfl
@[simp] theorem modFd_evt : (s.modFd f).evt = s.evt := rfl
@[simp] theorem modFd_fuses : (s.modFd f).fuses = s.fuses := rfl
@[simp] theorem modFd_flash : (s.modFd f).flash = s.flash := rfl
@[simp] theorem modFd_xsp : (s.modFd f).xsp = s.xsp := rfl
@[simp] theorem modFd_sec : (s.modFd f).sec = s.sec := rfl
@[simp] theorem modFd_tap : (s.modFd f).tap = s.tap := rfl
@[simp] theorem modFd_sup : (s.modFd f).sup = s.sup := rfl
@[simp] theorem modFd_unitFault : (s.modFd f).unitFault = s.unitFault := rfl
@[simp] theorem modFd_free : (s.modFd f).free = s.free := rfl
@[simp] theorem modFd_pending : (s.modFd f).pending = s.pending := rfl

end

/-! ### modHost -/

section

variable (f : HostState → HostState)

@[simp] theorem modHost_host : (s.modHost f).host = f s.host := rfl
@[simp] theorem modHost_sys : (s.modHost f).sys = s.sys := rfl
@[simp] theorem modHost_cht : (s.modHost f).cht = s.cht := rfl
@[simp] theorem modHost_clk : (s.modHost f).clk = s.clk := rfl
@[simp] theorem modHost_seam : (s.modHost f).seam = s.seam := rfl
@[simp] theorem modHost_seq : (s.modHost f).seq = s.seq := rfl
@[simp] theorem modHost_laneA : (s.modHost f).laneA = s.laneA := rfl
@[simp] theorem modHost_laneB : (s.modHost f).laneB = s.laneB := rfl
@[simp] theorem modHost_tram : (s.modHost f).tram = s.tram := rfl
@[simp] theorem modHost_asy : (s.modHost f).asy = s.asy := rfl
@[simp] theorem modHost_tly : (s.modHost f).tly = s.tly := rfl
@[simp] theorem modHost_wdt : (s.modHost f).wdt = s.wdt := rfl
@[simp] theorem modHost_pair : (s.modHost f).pair = s.pair := rfl
@[simp] theorem modHost_hf : (s.modHost f).hf = s.hf := rfl
@[simp] theorem modHost_msg : (s.modHost f).msg = s.msg := rfl
@[simp] theorem modHost_fld : (s.modHost f).fld = s.fld := rfl
@[simp] theorem modHost_fd : (s.modHost f).fd = s.fd := rfl
@[simp] theorem modHost_mb : (s.modHost f).mb = s.mb := rfl
@[simp] theorem modHost_ing : (s.modHost f).ing = s.ing := rfl
@[simp] theorem modHost_obt : (s.modHost f).obt = s.obt := rfl
@[simp] theorem modHost_age : (s.modHost f).age = s.age := rfl
@[simp] theorem modHost_hlt : (s.modHost f).hlt = s.hlt := rfl
@[simp] theorem modHost_pil : (s.modHost f).pil = s.pil := rfl
@[simp] theorem modHost_bkp : (s.modHost f).bkp = s.bkp := rfl
@[simp] theorem modHost_evt : (s.modHost f).evt = s.evt := rfl
@[simp] theorem modHost_fuses : (s.modHost f).fuses = s.fuses := rfl
@[simp] theorem modHost_flash : (s.modHost f).flash = s.flash := rfl
@[simp] theorem modHost_xsp : (s.modHost f).xsp = s.xsp := rfl
@[simp] theorem modHost_sec : (s.modHost f).sec = s.sec := rfl
@[simp] theorem modHost_tap : (s.modHost f).tap = s.tap := rfl
@[simp] theorem modHost_sup : (s.modHost f).sup = s.sup := rfl
@[simp] theorem modHost_unitFault : (s.modHost f).unitFault = s.unitFault := rfl
@[simp] theorem modHost_free : (s.modHost f).free = s.free := rfl
@[simp] theorem modHost_pending : (s.modHost f).pending = s.pending := rfl

end

/-! ### modAge -/

section

variable (f : AgeState → AgeState)

@[simp] theorem modAge_age : (s.modAge f).age = f s.age := rfl
@[simp] theorem modAge_sys : (s.modAge f).sys = s.sys := rfl
@[simp] theorem modAge_cht : (s.modAge f).cht = s.cht := rfl
@[simp] theorem modAge_clk : (s.modAge f).clk = s.clk := rfl
@[simp] theorem modAge_seam : (s.modAge f).seam = s.seam := rfl
@[simp] theorem modAge_seq : (s.modAge f).seq = s.seq := rfl
@[simp] theorem modAge_laneA : (s.modAge f).laneA = s.laneA := rfl
@[simp] theorem modAge_laneB : (s.modAge f).laneB = s.laneB := rfl
@[simp] theorem modAge_tram : (s.modAge f).tram = s.tram := rfl
@[simp] theorem modAge_asy : (s.modAge f).asy = s.asy := rfl
@[simp] theorem modAge_tly : (s.modAge f).tly = s.tly := rfl
@[simp] theorem modAge_wdt : (s.modAge f).wdt = s.wdt := rfl
@[simp] theorem modAge_pair : (s.modAge f).pair = s.pair := rfl
@[simp] theorem modAge_hf : (s.modAge f).hf = s.hf := rfl
@[simp] theorem modAge_msg : (s.modAge f).msg = s.msg := rfl
@[simp] theorem modAge_fld : (s.modAge f).fld = s.fld := rfl
@[simp] theorem modAge_fd : (s.modAge f).fd = s.fd := rfl
@[simp] theorem modAge_mb : (s.modAge f).mb = s.mb := rfl
@[simp] theorem modAge_ing : (s.modAge f).ing = s.ing := rfl
@[simp] theorem modAge_host : (s.modAge f).host = s.host := rfl
@[simp] theorem modAge_obt : (s.modAge f).obt = s.obt := rfl
@[simp] theorem modAge_hlt : (s.modAge f).hlt = s.hlt := rfl
@[simp] theorem modAge_pil : (s.modAge f).pil = s.pil := rfl
@[simp] theorem modAge_bkp : (s.modAge f).bkp = s.bkp := rfl
@[simp] theorem modAge_evt : (s.modAge f).evt = s.evt := rfl
@[simp] theorem modAge_fuses : (s.modAge f).fuses = s.fuses := rfl
@[simp] theorem modAge_flash : (s.modAge f).flash = s.flash := rfl
@[simp] theorem modAge_xsp : (s.modAge f).xsp = s.xsp := rfl
@[simp] theorem modAge_sec : (s.modAge f).sec = s.sec := rfl
@[simp] theorem modAge_tap : (s.modAge f).tap = s.tap := rfl
@[simp] theorem modAge_sup : (s.modAge f).sup = s.sup := rfl
@[simp] theorem modAge_unitFault : (s.modAge f).unitFault = s.unitFault := rfl
@[simp] theorem modAge_free : (s.modAge f).free = s.free := rfl
@[simp] theorem modAge_pending : (s.modAge f).pending = s.pending := rfl

end

/-! ### modPil -/

section

variable (f : PilState → PilState)

@[simp] theorem modPil_pil : (s.modPil f).pil = f s.pil := rfl
@[simp] theorem modPil_sys : (s.modPil f).sys = s.sys := rfl
@[simp] theorem modPil_cht : (s.modPil f).cht = s.cht := rfl
@[simp] theorem modPil_clk : (s.modPil f).clk = s.clk := rfl
@[simp] theorem modPil_seam : (s.modPil f).seam = s.seam := rfl
@[simp] theorem modPil_seq : (s.modPil f).seq = s.seq := rfl
@[simp] theorem modPil_laneA : (s.modPil f).laneA = s.laneA := rfl
@[simp] theorem modPil_laneB : (s.modPil f).laneB = s.laneB := rfl
@[simp] theorem modPil_tram : (s.modPil f).tram = s.tram := rfl
@[simp] theorem modPil_asy : (s.modPil f).asy = s.asy := rfl
@[simp] theorem modPil_tly : (s.modPil f).tly = s.tly := rfl
@[simp] theorem modPil_wdt : (s.modPil f).wdt = s.wdt := rfl
@[simp] theorem modPil_pair : (s.modPil f).pair = s.pair := rfl
@[simp] theorem modPil_hf : (s.modPil f).hf = s.hf := rfl
@[simp] theorem modPil_msg : (s.modPil f).msg = s.msg := rfl
@[simp] theorem modPil_fld : (s.modPil f).fld = s.fld := rfl
@[simp] theorem modPil_fd : (s.modPil f).fd = s.fd := rfl
@[simp] theorem modPil_mb : (s.modPil f).mb = s.mb := rfl
@[simp] theorem modPil_ing : (s.modPil f).ing = s.ing := rfl
@[simp] theorem modPil_host : (s.modPil f).host = s.host := rfl
@[simp] theorem modPil_obt : (s.modPil f).obt = s.obt := rfl
@[simp] theorem modPil_age : (s.modPil f).age = s.age := rfl
@[simp] theorem modPil_hlt : (s.modPil f).hlt = s.hlt := rfl
@[simp] theorem modPil_bkp : (s.modPil f).bkp = s.bkp := rfl
@[simp] theorem modPil_evt : (s.modPil f).evt = s.evt := rfl
@[simp] theorem modPil_fuses : (s.modPil f).fuses = s.fuses := rfl
@[simp] theorem modPil_flash : (s.modPil f).flash = s.flash := rfl
@[simp] theorem modPil_xsp : (s.modPil f).xsp = s.xsp := rfl
@[simp] theorem modPil_sec : (s.modPil f).sec = s.sec := rfl
@[simp] theorem modPil_tap : (s.modPil f).tap = s.tap := rfl
@[simp] theorem modPil_sup : (s.modPil f).sup = s.sup := rfl
@[simp] theorem modPil_unitFault : (s.modPil f).unitFault = s.unitFault := rfl
@[simp] theorem modPil_free : (s.modPil f).free = s.free := rfl
@[simp] theorem modPil_pending : (s.modPil f).pending = s.pending := rfl

end

/-! ### modBkp -/

section

variable (f : BkpState → BkpState)

@[simp] theorem modBkp_bkp : (s.modBkp f).bkp = f s.bkp := rfl
@[simp] theorem modBkp_sys : (s.modBkp f).sys = s.sys := rfl
@[simp] theorem modBkp_cht : (s.modBkp f).cht = s.cht := rfl
@[simp] theorem modBkp_clk : (s.modBkp f).clk = s.clk := rfl
@[simp] theorem modBkp_seam : (s.modBkp f).seam = s.seam := rfl
@[simp] theorem modBkp_seq : (s.modBkp f).seq = s.seq := rfl
@[simp] theorem modBkp_laneA : (s.modBkp f).laneA = s.laneA := rfl
@[simp] theorem modBkp_laneB : (s.modBkp f).laneB = s.laneB := rfl
@[simp] theorem modBkp_tram : (s.modBkp f).tram = s.tram := rfl
@[simp] theorem modBkp_asy : (s.modBkp f).asy = s.asy := rfl
@[simp] theorem modBkp_tly : (s.modBkp f).tly = s.tly := rfl
@[simp] theorem modBkp_wdt : (s.modBkp f).wdt = s.wdt := rfl
@[simp] theorem modBkp_pair : (s.modBkp f).pair = s.pair := rfl
@[simp] theorem modBkp_hf : (s.modBkp f).hf = s.hf := rfl
@[simp] theorem modBkp_msg : (s.modBkp f).msg = s.msg := rfl
@[simp] theorem modBkp_fld : (s.modBkp f).fld = s.fld := rfl
@[simp] theorem modBkp_fd : (s.modBkp f).fd = s.fd := rfl
@[simp] theorem modBkp_mb : (s.modBkp f).mb = s.mb := rfl
@[simp] theorem modBkp_ing : (s.modBkp f).ing = s.ing := rfl
@[simp] theorem modBkp_host : (s.modBkp f).host = s.host := rfl
@[simp] theorem modBkp_obt : (s.modBkp f).obt = s.obt := rfl
@[simp] theorem modBkp_age : (s.modBkp f).age = s.age := rfl
@[simp] theorem modBkp_hlt : (s.modBkp f).hlt = s.hlt := rfl
@[simp] theorem modBkp_pil : (s.modBkp f).pil = s.pil := rfl
@[simp] theorem modBkp_evt : (s.modBkp f).evt = s.evt := rfl
@[simp] theorem modBkp_fuses : (s.modBkp f).fuses = s.fuses := rfl
@[simp] theorem modBkp_flash : (s.modBkp f).flash = s.flash := rfl
@[simp] theorem modBkp_xsp : (s.modBkp f).xsp = s.xsp := rfl
@[simp] theorem modBkp_sec : (s.modBkp f).sec = s.sec := rfl
@[simp] theorem modBkp_tap : (s.modBkp f).tap = s.tap := rfl
@[simp] theorem modBkp_sup : (s.modBkp f).sup = s.sup := rfl
@[simp] theorem modBkp_unitFault : (s.modBkp f).unitFault = s.unitFault := rfl
@[simp] theorem modBkp_free : (s.modBkp f).free = s.free := rfl
@[simp] theorem modBkp_pending : (s.modBkp f).pending = s.pending := rfl

end

/-! ### modEvt -/

section

variable (f : EvtState → EvtState)

@[simp] theorem modEvt_evt : (s.modEvt f).evt = f s.evt := rfl
@[simp] theorem modEvt_sys : (s.modEvt f).sys = s.sys := rfl
@[simp] theorem modEvt_cht : (s.modEvt f).cht = s.cht := rfl
@[simp] theorem modEvt_clk : (s.modEvt f).clk = s.clk := rfl
@[simp] theorem modEvt_seam : (s.modEvt f).seam = s.seam := rfl
@[simp] theorem modEvt_seq : (s.modEvt f).seq = s.seq := rfl
@[simp] theorem modEvt_laneA : (s.modEvt f).laneA = s.laneA := rfl
@[simp] theorem modEvt_laneB : (s.modEvt f).laneB = s.laneB := rfl
@[simp] theorem modEvt_tram : (s.modEvt f).tram = s.tram := rfl
@[simp] theorem modEvt_asy : (s.modEvt f).asy = s.asy := rfl
@[simp] theorem modEvt_tly : (s.modEvt f).tly = s.tly := rfl
@[simp] theorem modEvt_wdt : (s.modEvt f).wdt = s.wdt := rfl
@[simp] theorem modEvt_pair : (s.modEvt f).pair = s.pair := rfl
@[simp] theorem modEvt_hf : (s.modEvt f).hf = s.hf := rfl
@[simp] theorem modEvt_msg : (s.modEvt f).msg = s.msg := rfl
@[simp] theorem modEvt_fld : (s.modEvt f).fld = s.fld := rfl
@[simp] theorem modEvt_fd : (s.modEvt f).fd = s.fd := rfl
@[simp] theorem modEvt_mb : (s.modEvt f).mb = s.mb := rfl
@[simp] theorem modEvt_ing : (s.modEvt f).ing = s.ing := rfl
@[simp] theorem modEvt_host : (s.modEvt f).host = s.host := rfl
@[simp] theorem modEvt_obt : (s.modEvt f).obt = s.obt := rfl
@[simp] theorem modEvt_age : (s.modEvt f).age = s.age := rfl
@[simp] theorem modEvt_hlt : (s.modEvt f).hlt = s.hlt := rfl
@[simp] theorem modEvt_pil : (s.modEvt f).pil = s.pil := rfl
@[simp] theorem modEvt_bkp : (s.modEvt f).bkp = s.bkp := rfl
@[simp] theorem modEvt_fuses : (s.modEvt f).fuses = s.fuses := rfl
@[simp] theorem modEvt_flash : (s.modEvt f).flash = s.flash := rfl
@[simp] theorem modEvt_xsp : (s.modEvt f).xsp = s.xsp := rfl
@[simp] theorem modEvt_sec : (s.modEvt f).sec = s.sec := rfl
@[simp] theorem modEvt_tap : (s.modEvt f).tap = s.tap := rfl
@[simp] theorem modEvt_sup : (s.modEvt f).sup = s.sup := rfl
@[simp] theorem modEvt_unitFault : (s.modEvt f).unitFault = s.unitFault := rfl
@[simp] theorem modEvt_free : (s.modEvt f).free = s.free := rfl
@[simp] theorem modEvt_pending : (s.modEvt f).pending = s.pending := rfl

end

/-! ### modXsp -/

section

variable (f : XspState → XspState)

@[simp] theorem modXsp_xsp : (s.modXsp f).xsp = f s.xsp := rfl
@[simp] theorem modXsp_sys : (s.modXsp f).sys = s.sys := rfl
@[simp] theorem modXsp_cht : (s.modXsp f).cht = s.cht := rfl
@[simp] theorem modXsp_clk : (s.modXsp f).clk = s.clk := rfl
@[simp] theorem modXsp_seam : (s.modXsp f).seam = s.seam := rfl
@[simp] theorem modXsp_seq : (s.modXsp f).seq = s.seq := rfl
@[simp] theorem modXsp_laneA : (s.modXsp f).laneA = s.laneA := rfl
@[simp] theorem modXsp_laneB : (s.modXsp f).laneB = s.laneB := rfl
@[simp] theorem modXsp_tram : (s.modXsp f).tram = s.tram := rfl
@[simp] theorem modXsp_asy : (s.modXsp f).asy = s.asy := rfl
@[simp] theorem modXsp_tly : (s.modXsp f).tly = s.tly := rfl
@[simp] theorem modXsp_wdt : (s.modXsp f).wdt = s.wdt := rfl
@[simp] theorem modXsp_pair : (s.modXsp f).pair = s.pair := rfl
@[simp] theorem modXsp_hf : (s.modXsp f).hf = s.hf := rfl
@[simp] theorem modXsp_msg : (s.modXsp f).msg = s.msg := rfl
@[simp] theorem modXsp_fld : (s.modXsp f).fld = s.fld := rfl
@[simp] theorem modXsp_fd : (s.modXsp f).fd = s.fd := rfl
@[simp] theorem modXsp_mb : (s.modXsp f).mb = s.mb := rfl
@[simp] theorem modXsp_ing : (s.modXsp f).ing = s.ing := rfl
@[simp] theorem modXsp_host : (s.modXsp f).host = s.host := rfl
@[simp] theorem modXsp_obt : (s.modXsp f).obt = s.obt := rfl
@[simp] theorem modXsp_age : (s.modXsp f).age = s.age := rfl
@[simp] theorem modXsp_hlt : (s.modXsp f).hlt = s.hlt := rfl
@[simp] theorem modXsp_pil : (s.modXsp f).pil = s.pil := rfl
@[simp] theorem modXsp_bkp : (s.modXsp f).bkp = s.bkp := rfl
@[simp] theorem modXsp_evt : (s.modXsp f).evt = s.evt := rfl
@[simp] theorem modXsp_fuses : (s.modXsp f).fuses = s.fuses := rfl
@[simp] theorem modXsp_flash : (s.modXsp f).flash = s.flash := rfl
@[simp] theorem modXsp_sec : (s.modXsp f).sec = s.sec := rfl
@[simp] theorem modXsp_tap : (s.modXsp f).tap = s.tap := rfl
@[simp] theorem modXsp_sup : (s.modXsp f).sup = s.sup := rfl
@[simp] theorem modXsp_unitFault : (s.modXsp f).unitFault = s.unitFault := rfl
@[simp] theorem modXsp_free : (s.modXsp f).free = s.free := rfl
@[simp] theorem modXsp_pending : (s.modXsp f).pending = s.pending := rfl

end

/-! ### modSec -/

section

variable (f : SecState → SecState)

@[simp] theorem modSec_sec : (s.modSec f).sec = f s.sec := rfl
@[simp] theorem modSec_sys : (s.modSec f).sys = s.sys := rfl
@[simp] theorem modSec_cht : (s.modSec f).cht = s.cht := rfl
@[simp] theorem modSec_clk : (s.modSec f).clk = s.clk := rfl
@[simp] theorem modSec_seam : (s.modSec f).seam = s.seam := rfl
@[simp] theorem modSec_seq : (s.modSec f).seq = s.seq := rfl
@[simp] theorem modSec_laneA : (s.modSec f).laneA = s.laneA := rfl
@[simp] theorem modSec_laneB : (s.modSec f).laneB = s.laneB := rfl
@[simp] theorem modSec_tram : (s.modSec f).tram = s.tram := rfl
@[simp] theorem modSec_asy : (s.modSec f).asy = s.asy := rfl
@[simp] theorem modSec_tly : (s.modSec f).tly = s.tly := rfl
@[simp] theorem modSec_wdt : (s.modSec f).wdt = s.wdt := rfl
@[simp] theorem modSec_pair : (s.modSec f).pair = s.pair := rfl
@[simp] theorem modSec_hf : (s.modSec f).hf = s.hf := rfl
@[simp] theorem modSec_msg : (s.modSec f).msg = s.msg := rfl
@[simp] theorem modSec_fld : (s.modSec f).fld = s.fld := rfl
@[simp] theorem modSec_fd : (s.modSec f).fd = s.fd := rfl
@[simp] theorem modSec_mb : (s.modSec f).mb = s.mb := rfl
@[simp] theorem modSec_ing : (s.modSec f).ing = s.ing := rfl
@[simp] theorem modSec_host : (s.modSec f).host = s.host := rfl
@[simp] theorem modSec_obt : (s.modSec f).obt = s.obt := rfl
@[simp] theorem modSec_age : (s.modSec f).age = s.age := rfl
@[simp] theorem modSec_hlt : (s.modSec f).hlt = s.hlt := rfl
@[simp] theorem modSec_pil : (s.modSec f).pil = s.pil := rfl
@[simp] theorem modSec_bkp : (s.modSec f).bkp = s.bkp := rfl
@[simp] theorem modSec_evt : (s.modSec f).evt = s.evt := rfl
@[simp] theorem modSec_fuses : (s.modSec f).fuses = s.fuses := rfl
@[simp] theorem modSec_flash : (s.modSec f).flash = s.flash := rfl
@[simp] theorem modSec_xsp : (s.modSec f).xsp = s.xsp := rfl
@[simp] theorem modSec_tap : (s.modSec f).tap = s.tap := rfl
@[simp] theorem modSec_sup : (s.modSec f).sup = s.sup := rfl
@[simp] theorem modSec_unitFault : (s.modSec f).unitFault = s.unitFault := rfl
@[simp] theorem modSec_free : (s.modSec f).free = s.free := rfl
@[simp] theorem modSec_pending : (s.modSec f).pending = s.pending := rfl

end

/-! ### modTap -/

section

variable (f : TapState → TapState)

@[simp] theorem modTap_tap : (s.modTap f).tap = f s.tap := rfl
@[simp] theorem modTap_sys : (s.modTap f).sys = s.sys := rfl
@[simp] theorem modTap_cht : (s.modTap f).cht = s.cht := rfl
@[simp] theorem modTap_clk : (s.modTap f).clk = s.clk := rfl
@[simp] theorem modTap_seam : (s.modTap f).seam = s.seam := rfl
@[simp] theorem modTap_seq : (s.modTap f).seq = s.seq := rfl
@[simp] theorem modTap_laneA : (s.modTap f).laneA = s.laneA := rfl
@[simp] theorem modTap_laneB : (s.modTap f).laneB = s.laneB := rfl
@[simp] theorem modTap_tram : (s.modTap f).tram = s.tram := rfl
@[simp] theorem modTap_asy : (s.modTap f).asy = s.asy := rfl
@[simp] theorem modTap_tly : (s.modTap f).tly = s.tly := rfl
@[simp] theorem modTap_wdt : (s.modTap f).wdt = s.wdt := rfl
@[simp] theorem modTap_pair : (s.modTap f).pair = s.pair := rfl
@[simp] theorem modTap_hf : (s.modTap f).hf = s.hf := rfl
@[simp] theorem modTap_msg : (s.modTap f).msg = s.msg := rfl
@[simp] theorem modTap_fld : (s.modTap f).fld = s.fld := rfl
@[simp] theorem modTap_fd : (s.modTap f).fd = s.fd := rfl
@[simp] theorem modTap_mb : (s.modTap f).mb = s.mb := rfl
@[simp] theorem modTap_ing : (s.modTap f).ing = s.ing := rfl
@[simp] theorem modTap_host : (s.modTap f).host = s.host := rfl
@[simp] theorem modTap_obt : (s.modTap f).obt = s.obt := rfl
@[simp] theorem modTap_age : (s.modTap f).age = s.age := rfl
@[simp] theorem modTap_hlt : (s.modTap f).hlt = s.hlt := rfl
@[simp] theorem modTap_pil : (s.modTap f).pil = s.pil := rfl
@[simp] theorem modTap_bkp : (s.modTap f).bkp = s.bkp := rfl
@[simp] theorem modTap_evt : (s.modTap f).evt = s.evt := rfl
@[simp] theorem modTap_fuses : (s.modTap f).fuses = s.fuses := rfl
@[simp] theorem modTap_flash : (s.modTap f).flash = s.flash := rfl
@[simp] theorem modTap_xsp : (s.modTap f).xsp = s.xsp := rfl
@[simp] theorem modTap_sec : (s.modTap f).sec = s.sec := rfl
@[simp] theorem modTap_sup : (s.modTap f).sup = s.sup := rfl
@[simp] theorem modTap_unitFault : (s.modTap f).unitFault = s.unitFault := rfl
@[simp] theorem modTap_free : (s.modTap f).free = s.free := rfl
@[simp] theorem modTap_pending : (s.modTap f).pending = s.pending := rfl

end

/-! ### modTask -/

section

variable (t : Task) (f : TaskSt → TaskSt)

@[simp] theorem modTask_seq : (s.modTask t f).seq = { s.seq with tasks := vecModify s.seq.tasks t f } := rfl
@[simp] theorem modTask_sys : (s.modTask t f).sys = s.sys := rfl
@[simp] theorem modTask_cht : (s.modTask t f).cht = s.cht := rfl
@[simp] theorem modTask_clk : (s.modTask t f).clk = s.clk := rfl
@[simp] theorem modTask_seam : (s.modTask t f).seam = s.seam := rfl
@[simp] theorem modTask_laneA : (s.modTask t f).laneA = s.laneA := rfl
@[simp] theorem modTask_laneB : (s.modTask t f).laneB = s.laneB := rfl
@[simp] theorem modTask_tram : (s.modTask t f).tram = s.tram := rfl
@[simp] theorem modTask_asy : (s.modTask t f).asy = s.asy := rfl
@[simp] theorem modTask_tly : (s.modTask t f).tly = s.tly := rfl
@[simp] theorem modTask_wdt : (s.modTask t f).wdt = s.wdt := rfl
@[simp] theorem modTask_pair : (s.modTask t f).pair = s.pair := rfl
@[simp] theorem modTask_hf : (s.modTask t f).hf = s.hf := rfl
@[simp] theorem modTask_msg : (s.modTask t f).msg = s.msg := rfl
@[simp] theorem modTask_fld : (s.modTask t f).fld = s.fld := rfl
@[simp] theorem modTask_fd : (s.modTask t f).fd = s.fd := rfl
@[simp] theorem modTask_mb : (s.modTask t f).mb = s.mb := rfl
@[simp] theorem modTask_ing : (s.modTask t f).ing = s.ing := rfl
@[simp] theorem modTask_host : (s.modTask t f).host = s.host := rfl
@[simp] theorem modTask_obt : (s.modTask t f).obt = s.obt := rfl
@[simp] theorem modTask_age : (s.modTask t f).age = s.age := rfl
@[simp] theorem modTask_hlt : (s.modTask t f).hlt = s.hlt := rfl
@[simp] theorem modTask_pil : (s.modTask t f).pil = s.pil := rfl
@[simp] theorem modTask_bkp : (s.modTask t f).bkp = s.bkp := rfl
@[simp] theorem modTask_evt : (s.modTask t f).evt = s.evt := rfl
@[simp] theorem modTask_fuses : (s.modTask t f).fuses = s.fuses := rfl
@[simp] theorem modTask_flash : (s.modTask t f).flash = s.flash := rfl
@[simp] theorem modTask_xsp : (s.modTask t f).xsp = s.xsp := rfl
@[simp] theorem modTask_sec : (s.modTask t f).sec = s.sec := rfl
@[simp] theorem modTask_tap : (s.modTask t f).tap = s.tap := rfl
@[simp] theorem modTask_sup : (s.modTask t f).sup = s.sup := rfl
@[simp] theorem modTask_unitFault : (s.modTask t f).unitFault = s.unitFault := rfl
@[simp] theorem modTask_free : (s.modTask t f).free = s.free := rfl
@[simp] theorem modTask_pending : (s.modTask t f).pending = s.pending := rfl

end

/-! ### modTally -/

section

variable (t : Task) (f : TallySt → TallySt)

@[simp] theorem modTally_tly : (s.modTally t f).tly = { s.tly with task := vecModify s.tly.task t f } := rfl
@[simp] theorem modTally_sys : (s.modTally t f).sys = s.sys := rfl
@[simp] theorem modTally_cht : (s.modTally t f).cht = s.cht := rfl
@[simp] theorem modTally_clk : (s.modTally t f).clk = s.clk := rfl
@[simp] theorem modTally_seam : (s.modTally t f).seam = s.seam := rfl
@[simp] theorem modTally_seq : (s.modTally t f).seq = s.seq := rfl
@[simp] theorem modTally_laneA : (s.modTally t f).laneA = s.laneA := rfl
@[simp] theorem modTally_laneB : (s.modTally t f).laneB = s.laneB := rfl
@[simp] theorem modTally_tram : (s.modTally t f).tram = s.tram := rfl
@[simp] theorem modTally_asy : (s.modTally t f).asy = s.asy := rfl
@[simp] theorem modTally_wdt : (s.modTally t f).wdt = s.wdt := rfl
@[simp] theorem modTally_pair : (s.modTally t f).pair = s.pair := rfl
@[simp] theorem modTally_hf : (s.modTally t f).hf = s.hf := rfl
@[simp] theorem modTally_msg : (s.modTally t f).msg = s.msg := rfl
@[simp] theorem modTally_fld : (s.modTally t f).fld = s.fld := rfl
@[simp] theorem modTally_fd : (s.modTally t f).fd = s.fd := rfl
@[simp] theorem modTally_mb : (s.modTally t f).mb = s.mb := rfl
@[simp] theorem modTally_ing : (s.modTally t f).ing = s.ing := rfl
@[simp] theorem modTally_host : (s.modTally t f).host = s.host := rfl
@[simp] theorem modTally_obt : (s.modTally t f).obt = s.obt := rfl
@[simp] theorem modTally_age : (s.modTally t f).age = s.age := rfl
@[simp] theorem modTally_hlt : (s.modTally t f).hlt = s.hlt := rfl
@[simp] theorem modTally_pil : (s.modTally t f).pil = s.pil := rfl
@[simp] theorem modTally_bkp : (s.modTally t f).bkp = s.bkp := rfl
@[simp] theorem modTally_evt : (s.modTally t f).evt = s.evt := rfl
@[simp] theorem modTally_fuses : (s.modTally t f).fuses = s.fuses := rfl
@[simp] theorem modTally_flash : (s.modTally t f).flash = s.flash := rfl
@[simp] theorem modTally_xsp : (s.modTally t f).xsp = s.xsp := rfl
@[simp] theorem modTally_sec : (s.modTally t f).sec = s.sec := rfl
@[simp] theorem modTally_tap : (s.modTally t f).tap = s.tap := rfl
@[simp] theorem modTally_sup : (s.modTally t f).sup = s.sup := rfl
@[simp] theorem modTally_unitFault : (s.modTally t f).unitFault = s.unitFault := rfl
@[simp] theorem modTally_free : (s.modTally t f).free = s.free := rfl
@[simp] theorem modTally_pending : (s.modTally t f).pending = s.pending := rfl

end

/-! ### modTram -/

section

variable (c : TramCh) (f : TramSt → TramSt)

@[simp] theorem modTram_tram : (s.modTram c f).tram = { s.tram with ch := vecModify s.tram.ch c f } := rfl
@[simp] theorem modTram_sys : (s.modTram c f).sys = s.sys := rfl
@[simp] theorem modTram_cht : (s.modTram c f).cht = s.cht := rfl
@[simp] theorem modTram_clk : (s.modTram c f).clk = s.clk := rfl
@[simp] theorem modTram_seam : (s.modTram c f).seam = s.seam := rfl
@[simp] theorem modTram_seq : (s.modTram c f).seq = s.seq := rfl
@[simp] theorem modTram_laneA : (s.modTram c f).laneA = s.laneA := rfl
@[simp] theorem modTram_laneB : (s.modTram c f).laneB = s.laneB := rfl
@[simp] theorem modTram_asy : (s.modTram c f).asy = s.asy := rfl
@[simp] theorem modTram_tly : (s.modTram c f).tly = s.tly := rfl
@[simp] theorem modTram_wdt : (s.modTram c f).wdt = s.wdt := rfl
@[simp] theorem modTram_pair : (s.modTram c f).pair = s.pair := rfl
@[simp] theorem modTram_hf : (s.modTram c f).hf = s.hf := rfl
@[simp] theorem modTram_msg : (s.modTram c f).msg = s.msg := rfl
@[simp] theorem modTram_fld : (s.modTram c f).fld = s.fld := rfl
@[simp] theorem modTram_fd : (s.modTram c f).fd = s.fd := rfl
@[simp] theorem modTram_mb : (s.modTram c f).mb = s.mb := rfl
@[simp] theorem modTram_ing : (s.modTram c f).ing = s.ing := rfl
@[simp] theorem modTram_host : (s.modTram c f).host = s.host := rfl
@[simp] theorem modTram_obt : (s.modTram c f).obt = s.obt := rfl
@[simp] theorem modTram_age : (s.modTram c f).age = s.age := rfl
@[simp] theorem modTram_hlt : (s.modTram c f).hlt = s.hlt := rfl
@[simp] theorem modTram_pil : (s.modTram c f).pil = s.pil := rfl
@[simp] theorem modTram_bkp : (s.modTram c f).bkp = s.bkp := rfl
@[simp] theorem modTram_evt : (s.modTram c f).evt = s.evt := rfl
@[simp] theorem modTram_fuses : (s.modTram c f).fuses = s.fuses := rfl
@[simp] theorem modTram_flash : (s.modTram c f).flash = s.flash := rfl
@[simp] theorem modTram_xsp : (s.modTram c f).xsp = s.xsp := rfl
@[simp] theorem modTram_sec : (s.modTram c f).sec = s.sec := rfl
@[simp] theorem modTram_tap : (s.modTram c f).tap = s.tap := rfl
@[simp] theorem modTram_sup : (s.modTram c f).sup = s.sup := rfl
@[simp] theorem modTram_unitFault : (s.modTram c f).unitFault = s.unitFault := rfl
@[simp] theorem modTram_free : (s.modTram c f).free = s.free := rfl
@[simp] theorem modTram_pending : (s.modTram c f).pending = s.pending := rfl

end

/-! ### modMb -/

section

variable (n : Bus) (f : MbState → MbState)

@[simp] theorem modMb_mb : (s.modMb n f).mb = vecModify s.mb n f := rfl
@[simp] theorem modMb_sys : (s.modMb n f).sys = s.sys := rfl
@[simp] theorem modMb_cht : (s.modMb n f).cht = s.cht := rfl
@[simp] theorem modMb_clk : (s.modMb n f).clk = s.clk := rfl
@[simp] theorem modMb_seam : (s.modMb n f).seam = s.seam := rfl
@[simp] theorem modMb_seq : (s.modMb n f).seq = s.seq := rfl
@[simp] theorem modMb_laneA : (s.modMb n f).laneA = s.laneA := rfl
@[simp] theorem modMb_laneB : (s.modMb n f).laneB = s.laneB := rfl
@[simp] theorem modMb_tram : (s.modMb n f).tram = s.tram := rfl
@[simp] theorem modMb_asy : (s.modMb n f).asy = s.asy := rfl
@[simp] theorem modMb_tly : (s.modMb n f).tly = s.tly := rfl
@[simp] theorem modMb_wdt : (s.modMb n f).wdt = s.wdt := rfl
@[simp] theorem modMb_pair : (s.modMb n f).pair = s.pair := rfl
@[simp] theorem modMb_hf : (s.modMb n f).hf = s.hf := rfl
@[simp] theorem modMb_msg : (s.modMb n f).msg = s.msg := rfl
@[simp] theorem modMb_fld : (s.modMb n f).fld = s.fld := rfl
@[simp] theorem modMb_fd : (s.modMb n f).fd = s.fd := rfl
@[simp] theorem modMb_ing : (s.modMb n f).ing = s.ing := rfl
@[simp] theorem modMb_host : (s.modMb n f).host = s.host := rfl
@[simp] theorem modMb_obt : (s.modMb n f).obt = s.obt := rfl
@[simp] theorem modMb_age : (s.modMb n f).age = s.age := rfl
@[simp] theorem modMb_hlt : (s.modMb n f).hlt = s.hlt := rfl
@[simp] theorem modMb_pil : (s.modMb n f).pil = s.pil := rfl
@[simp] theorem modMb_bkp : (s.modMb n f).bkp = s.bkp := rfl
@[simp] theorem modMb_evt : (s.modMb n f).evt = s.evt := rfl
@[simp] theorem modMb_fuses : (s.modMb n f).fuses = s.fuses := rfl
@[simp] theorem modMb_flash : (s.modMb n f).flash = s.flash := rfl
@[simp] theorem modMb_xsp : (s.modMb n f).xsp = s.xsp := rfl
@[simp] theorem modMb_sec : (s.modMb n f).sec = s.sec := rfl
@[simp] theorem modMb_tap : (s.modMb n f).tap = s.tap := rfl
@[simp] theorem modMb_sup : (s.modMb n f).sup = s.sup := rfl
@[simp] theorem modMb_unitFault : (s.modMb n f).unitFault = s.unitFault := rfl
@[simp] theorem modMb_free : (s.modMb n f).free = s.free := rfl
@[simp] theorem modMb_pending : (s.modMb n f).pending = s.pending := rfl

end

/-! ### modIng -/

section

variable (b : Block) (f : IngBlk → IngBlk)

@[simp] theorem modIng_ing : (s.modIng b f).ing = { s.ing with blocks := putBlk s.ing.blocks b (f (ingBlk s b)) } := rfl
@[simp] theorem modIng_sys : (s.modIng b f).sys = s.sys := rfl
@[simp] theorem modIng_cht : (s.modIng b f).cht = s.cht := rfl
@[simp] theorem modIng_clk : (s.modIng b f).clk = s.clk := rfl
@[simp] theorem modIng_seam : (s.modIng b f).seam = s.seam := rfl
@[simp] theorem modIng_seq : (s.modIng b f).seq = s.seq := rfl
@[simp] theorem modIng_laneA : (s.modIng b f).laneA = s.laneA := rfl
@[simp] theorem modIng_laneB : (s.modIng b f).laneB = s.laneB := rfl
@[simp] theorem modIng_tram : (s.modIng b f).tram = s.tram := rfl
@[simp] theorem modIng_asy : (s.modIng b f).asy = s.asy := rfl
@[simp] theorem modIng_tly : (s.modIng b f).tly = s.tly := rfl
@[simp] theorem modIng_wdt : (s.modIng b f).wdt = s.wdt := rfl
@[simp] theorem modIng_pair : (s.modIng b f).pair = s.pair := rfl
@[simp] theorem modIng_hf : (s.modIng b f).hf = s.hf := rfl
@[simp] theorem modIng_msg : (s.modIng b f).msg = s.msg := rfl
@[simp] theorem modIng_fld : (s.modIng b f).fld = s.fld := rfl
@[simp] theorem modIng_fd : (s.modIng b f).fd = s.fd := rfl
@[simp] theorem modIng_mb : (s.modIng b f).mb = s.mb := rfl
@[simp] theorem modIng_host : (s.modIng b f).host = s.host := rfl
@[simp] theorem modIng_obt : (s.modIng b f).obt = s.obt := rfl
@[simp] theorem modIng_age : (s.modIng b f).age = s.age := rfl
@[simp] theorem modIng_hlt : (s.modIng b f).hlt = s.hlt := rfl
@[simp] theorem modIng_pil : (s.modIng b f).pil = s.pil := rfl
@[simp] theorem modIng_bkp : (s.modIng b f).bkp = s.bkp := rfl
@[simp] theorem modIng_evt : (s.modIng b f).evt = s.evt := rfl
@[simp] theorem modIng_fuses : (s.modIng b f).fuses = s.fuses := rfl
@[simp] theorem modIng_flash : (s.modIng b f).flash = s.flash := rfl
@[simp] theorem modIng_xsp : (s.modIng b f).xsp = s.xsp := rfl
@[simp] theorem modIng_sec : (s.modIng b f).sec = s.sec := rfl
@[simp] theorem modIng_tap : (s.modIng b f).tap = s.tap := rfl
@[simp] theorem modIng_sup : (s.modIng b f).sup = s.sup := rfl
@[simp] theorem modIng_unitFault : (s.modIng b f).unitFault = s.unitFault := rfl
@[simp] theorem modIng_free : (s.modIng b f).free = s.free := rfl
@[simp] theorem modIng_pending : (s.modIng b f).pending = s.pending := rfl

end

/-! ### modChan -/

section

variable (c : Chan) (f : ChanSt → ChanSt)

@[simp] theorem modChan_fd : (s.modChan c f).fd = { s.fd with ch := vecModify s.fd.ch c f } := rfl
@[simp] theorem modChan_sys : (s.modChan c f).sys = s.sys := rfl
@[simp] theorem modChan_cht : (s.modChan c f).cht = s.cht := rfl
@[simp] theorem modChan_clk : (s.modChan c f).clk = s.clk := rfl
@[simp] theorem modChan_seam : (s.modChan c f).seam = s.seam := rfl
@[simp] theorem modChan_seq : (s.modChan c f).seq = s.seq := rfl
@[simp] theorem modChan_laneA : (s.modChan c f).laneA = s.laneA := rfl
@[simp] theorem modChan_laneB : (s.modChan c f).laneB = s.laneB := rfl
@[simp] theorem modChan_tram : (s.modChan c f).tram = s.tram := rfl
@[simp] theorem modChan_asy : (s.modChan c f).asy = s.asy := rfl
@[simp] theorem modChan_tly : (s.modChan c f).tly = s.tly := rfl
@[simp] theorem modChan_wdt : (s.modChan c f).wdt = s.wdt := rfl
@[simp] theorem modChan_pair : (s.modChan c f).pair = s.pair := rfl
@[simp] theorem modChan_hf : (s.modChan c f).hf = s.hf := rfl
@[simp] theorem modChan_msg : (s.modChan c f).msg = s.msg := rfl
@[simp] theorem modChan_fld : (s.modChan c f).fld = s.fld := rfl
@[simp] theorem modChan_mb : (s.modChan c f).mb = s.mb := rfl
@[simp] theorem modChan_ing : (s.modChan c f).ing = s.ing := rfl
@[simp] theorem modChan_host : (s.modChan c f).host = s.host := rfl
@[simp] theorem modChan_obt : (s.modChan c f).obt = s.obt := rfl
@[simp] theorem modChan_age : (s.modChan c f).age = s.age := rfl
@[simp] theorem modChan_hlt : (s.modChan c f).hlt = s.hlt := rfl
@[simp] theorem modChan_pil : (s.modChan c f).pil = s.pil := rfl
@[simp] theorem modChan_bkp : (s.modChan c f).bkp = s.bkp := rfl
@[simp] theorem modChan_evt : (s.modChan c f).evt = s.evt := rfl
@[simp] theorem modChan_fuses : (s.modChan c f).fuses = s.fuses := rfl
@[simp] theorem modChan_flash : (s.modChan c f).flash = s.flash := rfl
@[simp] theorem modChan_xsp : (s.modChan c f).xsp = s.xsp := rfl
@[simp] theorem modChan_sec : (s.modChan c f).sec = s.sec := rfl
@[simp] theorem modChan_tap : (s.modChan c f).tap = s.tap := rfl
@[simp] theorem modChan_sup : (s.modChan c f).sup = s.sup := rfl
@[simp] theorem modChan_unitFault : (s.modChan c f).unitFault = s.unitFault := rfl
@[simp] theorem modChan_free : (s.modChan c f).free = s.free := rfl
@[simp] theorem modChan_pending : (s.modChan c f).pending = s.pending := rfl

end

/-! ### takeFree -/

@[simp] theorem takeFree_snd : s.takeFree.2 = s.free := rfl
@[simp] theorem takeFree_free : s.takeFree.1.free = s.free + 1 := rfl
@[simp] theorem takeFree_sys : s.takeFree.1.sys = s.sys := rfl
@[simp] theorem takeFree_cht : s.takeFree.1.cht = s.cht := rfl
@[simp] theorem takeFree_clk : s.takeFree.1.clk = s.clk := rfl
@[simp] theorem takeFree_seam : s.takeFree.1.seam = s.seam := rfl
@[simp] theorem takeFree_seq : s.takeFree.1.seq = s.seq := rfl
@[simp] theorem takeFree_laneA : s.takeFree.1.laneA = s.laneA := rfl
@[simp] theorem takeFree_laneB : s.takeFree.1.laneB = s.laneB := rfl
@[simp] theorem takeFree_tram : s.takeFree.1.tram = s.tram := rfl
@[simp] theorem takeFree_asy : s.takeFree.1.asy = s.asy := rfl
@[simp] theorem takeFree_tly : s.takeFree.1.tly = s.tly := rfl
@[simp] theorem takeFree_wdt : s.takeFree.1.wdt = s.wdt := rfl
@[simp] theorem takeFree_pair : s.takeFree.1.pair = s.pair := rfl
@[simp] theorem takeFree_hf : s.takeFree.1.hf = s.hf := rfl
@[simp] theorem takeFree_msg : s.takeFree.1.msg = s.msg := rfl
@[simp] theorem takeFree_fld : s.takeFree.1.fld = s.fld := rfl
@[simp] theorem takeFree_fd : s.takeFree.1.fd = s.fd := rfl
@[simp] theorem takeFree_mb : s.takeFree.1.mb = s.mb := rfl
@[simp] theorem takeFree_ing : s.takeFree.1.ing = s.ing := rfl
@[simp] theorem takeFree_host : s.takeFree.1.host = s.host := rfl
@[simp] theorem takeFree_obt : s.takeFree.1.obt = s.obt := rfl
@[simp] theorem takeFree_age : s.takeFree.1.age = s.age := rfl
@[simp] theorem takeFree_hlt : s.takeFree.1.hlt = s.hlt := rfl
@[simp] theorem takeFree_pil : s.takeFree.1.pil = s.pil := rfl
@[simp] theorem takeFree_bkp : s.takeFree.1.bkp = s.bkp := rfl
@[simp] theorem takeFree_evt : s.takeFree.1.evt = s.evt := rfl
@[simp] theorem takeFree_fuses : s.takeFree.1.fuses = s.fuses := rfl
@[simp] theorem takeFree_flash : s.takeFree.1.flash = s.flash := rfl
@[simp] theorem takeFree_xsp : s.takeFree.1.xsp = s.xsp := rfl
@[simp] theorem takeFree_sec : s.takeFree.1.sec = s.sec := rfl
@[simp] theorem takeFree_tap : s.takeFree.1.tap = s.tap := rfl
@[simp] theorem takeFree_sup : s.takeFree.1.sup = s.sup := rfl
@[simp] theorem takeFree_unitFault : s.takeFree.1.unitFault = s.unitFault := rfl
@[simp] theorem takeFree_pending : s.takeFree.1.pending = s.pending := rfl

/-! ### Lanes -/

@[simp] theorem lane_a : s.lane .a = s.laneA := rfl
@[simp] theorem lane_b : s.lane .b = s.laneB := rfl
@[simp] theorem modLane_a_laneA (f : Lane → Lane) : (s.modLane .a f).laneA = f s.laneA := rfl
@[simp] theorem modLane_a_laneB (f : Lane → Lane) : (s.modLane .a f).laneB = s.laneB := rfl
@[simp] theorem modLane_b_laneA (f : Lane → Lane) : (s.modLane .b f).laneA = s.laneA := rfl
@[simp] theorem modLane_b_laneB (f : Lane → Lane) : (s.modLane .b f).laneB = f s.laneB := rfl
@[simp] theorem modLane_lane (l : LaneId) (f : Lane → Lane) : (s.modLane l f).lane l = f (s.lane l) := by cases l <;> rfl
@[simp] theorem modLane_other (l : LaneId) (f : Lane → Lane) : (s.modLane l f).lane l.other = s.lane l.other := by cases l <;> rfl

section

variable (l : LaneId) (f : Lane → Lane)

@[simp] theorem modLane_sys : (s.modLane l f).sys = s.sys := by cases l <;> rfl
@[simp] theorem modLane_cht : (s.modLane l f).cht = s.cht := by cases l <;> rfl
@[simp] theorem modLane_clk : (s.modLane l f).clk = s.clk := by cases l <;> rfl
@[simp] theorem modLane_seam : (s.modLane l f).seam = s.seam := by cases l <;> rfl
@[simp] theorem modLane_seq : (s.modLane l f).seq = s.seq := by cases l <;> rfl
@[simp] theorem modLane_tram : (s.modLane l f).tram = s.tram := by cases l <;> rfl
@[simp] theorem modLane_asy : (s.modLane l f).asy = s.asy := by cases l <;> rfl
@[simp] theorem modLane_tly : (s.modLane l f).tly = s.tly := by cases l <;> rfl
@[simp] theorem modLane_wdt : (s.modLane l f).wdt = s.wdt := by cases l <;> rfl
@[simp] theorem modLane_pair : (s.modLane l f).pair = s.pair := by cases l <;> rfl
@[simp] theorem modLane_hf : (s.modLane l f).hf = s.hf := by cases l <;> rfl
@[simp] theorem modLane_msg : (s.modLane l f).msg = s.msg := by cases l <;> rfl
@[simp] theorem modLane_fld : (s.modLane l f).fld = s.fld := by cases l <;> rfl
@[simp] theorem modLane_fd : (s.modLane l f).fd = s.fd := by cases l <;> rfl
@[simp] theorem modLane_mb : (s.modLane l f).mb = s.mb := by cases l <;> rfl
@[simp] theorem modLane_ing : (s.modLane l f).ing = s.ing := by cases l <;> rfl
@[simp] theorem modLane_host : (s.modLane l f).host = s.host := by cases l <;> rfl
@[simp] theorem modLane_obt : (s.modLane l f).obt = s.obt := by cases l <;> rfl
@[simp] theorem modLane_age : (s.modLane l f).age = s.age := by cases l <;> rfl
@[simp] theorem modLane_hlt : (s.modLane l f).hlt = s.hlt := by cases l <;> rfl
@[simp] theorem modLane_pil : (s.modLane l f).pil = s.pil := by cases l <;> rfl
@[simp] theorem modLane_bkp : (s.modLane l f).bkp = s.bkp := by cases l <;> rfl
@[simp] theorem modLane_evt : (s.modLane l f).evt = s.evt := by cases l <;> rfl
@[simp] theorem modLane_fuses : (s.modLane l f).fuses = s.fuses := by cases l <;> rfl
@[simp] theorem modLane_flash : (s.modLane l f).flash = s.flash := by cases l <;> rfl
@[simp] theorem modLane_xsp : (s.modLane l f).xsp = s.xsp := by cases l <;> rfl
@[simp] theorem modLane_sec : (s.modLane l f).sec = s.sec := by cases l <;> rfl
@[simp] theorem modLane_tap : (s.modLane l f).tap = s.tap := by cases l <;> rfl
@[simp] theorem modLane_sup : (s.modLane l f).sup = s.sup := by cases l <;> rfl
@[simp] theorem modLane_unitFault : (s.modLane l f).unitFault = s.unitFault := by cases l <;> rfl
@[simp] theorem modLane_free : (s.modLane l f).free = s.free := by cases l <;> rfl
@[simp] theorem modLane_pending : (s.modLane l f).pending = s.pending := by cases l <;> rfl

end

section

variable (l : LaneId) (f : Ctx → Ctx)

@[simp] theorem modCtx_sys : (s.modCtx l f).sys = s.sys := by cases l <;> rfl
@[simp] theorem modCtx_cht : (s.modCtx l f).cht = s.cht := by cases l <;> rfl
@[simp] theorem modCtx_clk : (s.modCtx l f).clk = s.clk := by cases l <;> rfl
@[simp] theorem modCtx_seam : (s.modCtx l f).seam = s.seam := by cases l <;> rfl
@[simp] theorem modCtx_seq : (s.modCtx l f).seq = s.seq := by cases l <;> rfl
@[simp] theorem modCtx_tram : (s.modCtx l f).tram = s.tram := by cases l <;> rfl
@[simp] theorem modCtx_asy : (s.modCtx l f).asy = s.asy := by cases l <;> rfl
@[simp] theorem modCtx_tly : (s.modCtx l f).tly = s.tly := by cases l <;> rfl
@[simp] theorem modCtx_wdt : (s.modCtx l f).wdt = s.wdt := by cases l <;> rfl
@[simp] theorem modCtx_pair : (s.modCtx l f).pair = s.pair := by cases l <;> rfl
@[simp] theorem modCtx_hf : (s.modCtx l f).hf = s.hf := by cases l <;> rfl
@[simp] theorem modCtx_msg : (s.modCtx l f).msg = s.msg := by cases l <;> rfl
@[simp] theorem modCtx_fld : (s.modCtx l f).fld = s.fld := by cases l <;> rfl
@[simp] theorem modCtx_fd : (s.modCtx l f).fd = s.fd := by cases l <;> rfl
@[simp] theorem modCtx_mb : (s.modCtx l f).mb = s.mb := by cases l <;> rfl
@[simp] theorem modCtx_ing : (s.modCtx l f).ing = s.ing := by cases l <;> rfl
@[simp] theorem modCtx_host : (s.modCtx l f).host = s.host := by cases l <;> rfl
@[simp] theorem modCtx_obt : (s.modCtx l f).obt = s.obt := by cases l <;> rfl
@[simp] theorem modCtx_age : (s.modCtx l f).age = s.age := by cases l <;> rfl
@[simp] theorem modCtx_hlt : (s.modCtx l f).hlt = s.hlt := by cases l <;> rfl
@[simp] theorem modCtx_pil : (s.modCtx l f).pil = s.pil := by cases l <;> rfl
@[simp] theorem modCtx_bkp : (s.modCtx l f).bkp = s.bkp := by cases l <;> rfl
@[simp] theorem modCtx_evt : (s.modCtx l f).evt = s.evt := by cases l <;> rfl
@[simp] theorem modCtx_fuses : (s.modCtx l f).fuses = s.fuses := by cases l <;> rfl
@[simp] theorem modCtx_flash : (s.modCtx l f).flash = s.flash := by cases l <;> rfl
@[simp] theorem modCtx_xsp : (s.modCtx l f).xsp = s.xsp := by cases l <;> rfl
@[simp] theorem modCtx_sec : (s.modCtx l f).sec = s.sec := by cases l <;> rfl
@[simp] theorem modCtx_tap : (s.modCtx l f).tap = s.tap := by cases l <;> rfl
@[simp] theorem modCtx_sup : (s.modCtx l f).sup = s.sup := by cases l <;> rfl
@[simp] theorem modCtx_unitFault : (s.modCtx l f).unitFault = s.unitFault := by cases l <;> rfl
@[simp] theorem modCtx_free : (s.modCtx l f).free = s.free := by cases l <;> rfl
@[simp] theorem modCtx_pending : (s.modCtx l f).pending = s.pending := by cases l <;> rfl

end

section

variable (l : LaneId) (t : Task) (f : LCycle → LCycle)

@[simp] theorem modCycle_sys : (s.modCycle l t f).sys = s.sys := by cases l <;> rfl
@[simp] theorem modCycle_cht : (s.modCycle l t f).cht = s.cht := by cases l <;> rfl
@[simp] theorem modCycle_clk : (s.modCycle l t f).clk = s.clk := by cases l <;> rfl
@[simp] theorem modCycle_seam : (s.modCycle l t f).seam = s.seam := by cases l <;> rfl
@[simp] theorem modCycle_seq : (s.modCycle l t f).seq = s.seq := by cases l <;> rfl
@[simp] theorem modCycle_tram : (s.modCycle l t f).tram = s.tram := by cases l <;> rfl
@[simp] theorem modCycle_asy : (s.modCycle l t f).asy = s.asy := by cases l <;> rfl
@[simp] theorem modCycle_tly : (s.modCycle l t f).tly = s.tly := by cases l <;> rfl
@[simp] theorem modCycle_wdt : (s.modCycle l t f).wdt = s.wdt := by cases l <;> rfl
@[simp] theorem modCycle_pair : (s.modCycle l t f).pair = s.pair := by cases l <;> rfl
@[simp] theorem modCycle_hf : (s.modCycle l t f).hf = s.hf := by cases l <;> rfl
@[simp] theorem modCycle_msg : (s.modCycle l t f).msg = s.msg := by cases l <;> rfl
@[simp] theorem modCycle_fld : (s.modCycle l t f).fld = s.fld := by cases l <;> rfl
@[simp] theorem modCycle_fd : (s.modCycle l t f).fd = s.fd := by cases l <;> rfl
@[simp] theorem modCycle_mb : (s.modCycle l t f).mb = s.mb := by cases l <;> rfl
@[simp] theorem modCycle_ing : (s.modCycle l t f).ing = s.ing := by cases l <;> rfl
@[simp] theorem modCycle_host : (s.modCycle l t f).host = s.host := by cases l <;> rfl
@[simp] theorem modCycle_obt : (s.modCycle l t f).obt = s.obt := by cases l <;> rfl
@[simp] theorem modCycle_age : (s.modCycle l t f).age = s.age := by cases l <;> rfl
@[simp] theorem modCycle_hlt : (s.modCycle l t f).hlt = s.hlt := by cases l <;> rfl
@[simp] theorem modCycle_pil : (s.modCycle l t f).pil = s.pil := by cases l <;> rfl
@[simp] theorem modCycle_bkp : (s.modCycle l t f).bkp = s.bkp := by cases l <;> rfl
@[simp] theorem modCycle_evt : (s.modCycle l t f).evt = s.evt := by cases l <;> rfl
@[simp] theorem modCycle_fuses : (s.modCycle l t f).fuses = s.fuses := by cases l <;> rfl
@[simp] theorem modCycle_flash : (s.modCycle l t f).flash = s.flash := by cases l <;> rfl
@[simp] theorem modCycle_xsp : (s.modCycle l t f).xsp = s.xsp := by cases l <;> rfl
@[simp] theorem modCycle_sec : (s.modCycle l t f).sec = s.sec := by cases l <;> rfl
@[simp] theorem modCycle_tap : (s.modCycle l t f).tap = s.tap := by cases l <;> rfl
@[simp] theorem modCycle_sup : (s.modCycle l t f).sup = s.sup := by cases l <;> rfl
@[simp] theorem modCycle_unitFault : (s.modCycle l t f).unitFault = s.unitFault := by cases l <;> rfl
@[simp] theorem modCycle_free : (s.modCycle l t f).free = s.free := by cases l <;> rfl
@[simp] theorem modCycle_pending : (s.modCycle l t f).pending = s.pending := by cases l <;> rfl

end

@[simp] theorem modCtx_lane (l : LaneId) (f : Ctx → Ctx) : (s.modCtx l f).lane l = { s.lane l with ctx := f (s.lane l).ctx } := by
  cases l <;> rfl
@[simp] theorem modCtx_other (l : LaneId) (f : Ctx → Ctx) : (s.modCtx l f).lane l.other = s.lane l.other := by cases l <;> rfl
@[simp] theorem modCtx_ctx (l : LaneId) (f : Ctx → Ctx) : (s.modCtx l f).ctx l = f (s.ctx l) := by cases l <;> rfl
@[simp] theorem modCycle_lane (l : LaneId) (t : Task) (f : LCycle → LCycle) :
    (s.modCycle l t f).lane l = (s.lane l).modCycle t f := by cases l <;> rfl
@[simp] theorem modCycle_other (l : LaneId) (t : Task) (f : LCycle → LCycle) :
    (s.modCycle l t f).lane l.other = s.lane l.other := by cases l <;> rfl
@[simp] theorem modCycle_cycle (l : LaneId) (t : Task) (f : LCycle → LCycle) :
    (s.modCycle l t f).cycle l t = (s.cycle l t).map f := by
  cases l <;> simp [State.modCycle, State.cycle, Lane.cycle, Lane.modCycle, vecModify]
@[simp] theorem modTask_task (t : Task) (f : TaskSt → TaskSt) : (s.modTask t f).task t = f (s.task t) := by
  simp [State.task, vecModify]
@[simp] theorem modMb_same (n : Bus) (f : MbState → MbState) : (s.modMb n f).mb[n] = f s.mb[n] := by simp [State.modMb, vecModify]

@[simp] theorem modLanes_sys (f : Lane → Lane) : (s.modLanes f).sys = s.sys := rfl
@[simp] theorem modLanes_cht (f : Lane → Lane) : (s.modLanes f).cht = s.cht := rfl
@[simp] theorem modLanes_clk (f : Lane → Lane) : (s.modLanes f).clk = s.clk := rfl
@[simp] theorem modLanes_seam (f : Lane → Lane) : (s.modLanes f).seam = s.seam := rfl
@[simp] theorem modLanes_seq (f : Lane → Lane) : (s.modLanes f).seq = s.seq := rfl
@[simp] theorem modLanes_tram (f : Lane → Lane) : (s.modLanes f).tram = s.tram := rfl
@[simp] theorem modLanes_asy (f : Lane → Lane) : (s.modLanes f).asy = s.asy := rfl
@[simp] theorem modLanes_tly (f : Lane → Lane) : (s.modLanes f).tly = s.tly := rfl
@[simp] theorem modLanes_wdt (f : Lane → Lane) : (s.modLanes f).wdt = s.wdt := rfl
@[simp] theorem modLanes_pair (f : Lane → Lane) : (s.modLanes f).pair = s.pair := rfl
@[simp] theorem modLanes_hf (f : Lane → Lane) : (s.modLanes f).hf = s.hf := rfl
@[simp] theorem modLanes_msg (f : Lane → Lane) : (s.modLanes f).msg = s.msg := rfl
@[simp] theorem modLanes_fld (f : Lane → Lane) : (s.modLanes f).fld = s.fld := rfl
@[simp] theorem modLanes_fd (f : Lane → Lane) : (s.modLanes f).fd = s.fd := rfl
@[simp] theorem modLanes_mb (f : Lane → Lane) : (s.modLanes f).mb = s.mb := rfl
@[simp] theorem modLanes_ing (f : Lane → Lane) : (s.modLanes f).ing = s.ing := rfl
@[simp] theorem modLanes_host (f : Lane → Lane) : (s.modLanes f).host = s.host := rfl
@[simp] theorem modLanes_obt (f : Lane → Lane) : (s.modLanes f).obt = s.obt := rfl
@[simp] theorem modLanes_age (f : Lane → Lane) : (s.modLanes f).age = s.age := rfl
@[simp] theorem modLanes_hlt (f : Lane → Lane) : (s.modLanes f).hlt = s.hlt := rfl
@[simp] theorem modLanes_pil (f : Lane → Lane) : (s.modLanes f).pil = s.pil := rfl
@[simp] theorem modLanes_bkp (f : Lane → Lane) : (s.modLanes f).bkp = s.bkp := rfl
@[simp] theorem modLanes_evt (f : Lane → Lane) : (s.modLanes f).evt = s.evt := rfl
@[simp] theorem modLanes_fuses (f : Lane → Lane) : (s.modLanes f).fuses = s.fuses := rfl
@[simp] theorem modLanes_flash (f : Lane → Lane) : (s.modLanes f).flash = s.flash := rfl
@[simp] theorem modLanes_xsp (f : Lane → Lane) : (s.modLanes f).xsp = s.xsp := rfl
@[simp] theorem modLanes_sec (f : Lane → Lane) : (s.modLanes f).sec = s.sec := rfl
@[simp] theorem modLanes_tap (f : Lane → Lane) : (s.modLanes f).tap = s.tap := rfl
@[simp] theorem modLanes_sup (f : Lane → Lane) : (s.modLanes f).sup = s.sup := rfl
@[simp] theorem modLanes_unitFault (f : Lane → Lane) : (s.modLanes f).unitFault = s.unitFault := rfl
@[simp] theorem modLanes_free (f : Lane → Lane) : (s.modLanes f).free = s.free := rfl
@[simp] theorem modLanes_pending (f : Lane → Lane) : (s.modLanes f).pending = s.pending := rfl
@[simp] theorem modLanes_laneA (f : Lane → Lane) : (s.modLanes f).laneA = f s.laneA := rfl
@[simp] theorem modLanes_laneB (f : Lane → Lane) : (s.modLanes f).laneB = f s.laneB := rfl

/-! ### Vectors -/

@[simp] theorem vecModify_same {α : Type} {n : Nat} (v : Vector α n) (i : Fin n) (f : α → α) : (vecModify v i f)[i] = f v[i] := by
  simp [vecModify]

theorem vecModify_other {α : Type} {n : Nat} (v : Vector α n) {i j : Fin n} (f : α → α) (h : j ≠ i) : (vecModify v i f)[j] = v[j] := by
  have : i.val ≠ j.val := fun e => h (Fin.ext e.symm)
  simp [vecModify, this]

end Sys2Proof.Laws
end

