-- ==== Sys2Proof/Laws/Shared.lean ====
section
/-! SUPPORT. What the shared operations can do, said once: a notification, posting an event, the link's frames, the unit fault reaction, the
confined port access, page commits and the frame of a Headframe instruction. -/

namespace Sys2Proof.Laws

open Sys2Proof Sys2Proof.Machine

variable (s : State)

/-! ### Notifying and posting an event -/

/-- All that recording can change: the event recorder, the pillar but for its banks, the warning and the store, the pulse seams, and which
gates are open. The pillar's memory stays canonical. -/
structure Records (s t : State) : Prop where
  eq : t = { s with evt := t.evt, pil := t.pil, seam := t.seam, clk := { s.clk with gate := t.clk.gate } }
  wf : Memory.wf s.pil.sram = true → Memory.wf t.pil.sram = true
  bank0 : t.pil.bank0 = s.pil.bank0
  bank1 : t.pil.bank1 = s.pil.bank1
  store : t.pil.store = s.pil.store
  pfw : t.pil.pfw = s.pil.pfw
  seam : t.seam = { s.seam with pulse := t.seam.pulse, ovr := t.seam.ovr }

theorem Records.refl : Records s s := ⟨rfl, id, rfl, rfl, rfl, rfl, rfl⟩

theorem Records.trans {s t u : State} (h : Records s t) (k : Records t u) : Records s u where
  eq := k.eq.trans (by rw [h.eq])
  wf := k.wf ∘ h.wf
  bank0 := k.bank0.trans h.bank0
  bank1 := k.bank1.trans h.bank1
  store := k.store.trans h.store
  pfw := k.pfw.trans h.pfw
  seam := k.seam.trans (by rw [h.seam])

/-- The recorder's state alone is written. -/
theorem records_evt (e : EvtState) : Records s { s with evt := e } := ⟨rfl, id, rfl, rfl, rfl, rfl, rfl⟩

/-- A pulse in a seam changes that seam, the overrun flag and the Headframe's gate. -/
theorem records_enterSeam (i : Fin 16) (n : Nat) : Records s (enterSeam s i n) := ⟨rfl, id, rfl, rfl, rfl, rfl, rfl⟩

theorem records_notifySeam (i : Fin 16) : Records s (notifySeam s i) := records_enterSeam s i 0

/-- A page written keeps the pillar's memory canonical. -/
theorem wf_writePage {page : Nat} {data : List Byte} (h : Memory.wf s.pil.sram = true) :
    Memory.wf (writePage s page data).pil.sram = true := wf_memWriteSeq h

/-- A page written changes the pillar's memory and its check bits alone. -/
theorem records_writePage (page : Nat) (data : List Byte) : Records s (writePage s page data) where
  eq := by unfold writePage; rfl
  wf := wf_writePage s
  bank0 := rfl
  bank1 := rfl
  store := rfl
  pfw := rfl
  seam := rfl

theorem records_refuseCommit (r : Nat) : Records s (refuseCommit s r) := ⟨rfl, id, rfl, rfl, rfl, rfl, rfl⟩

theorem records_recorderCommit (page : Nat) : Records s (recorderCommit s page) := by
  unfold recorderCommit
  split
  · exact records_refuseCommit s 1
  · exact records_writePage s _ _

theorem records_commitCounters : Records s (commitCounters s) :=
  (records_recorderCommit s 0).trans (records_recorderCommit _ 4)

/-- An event lost changes its counter and, but under a warning, the recorder's page. -/
theorem records_loseEvent : Records s (loseEvent s) := (records_evt s _).trans (records_recorderCommit _ 0)

/-- An event put into the queue changes the recorder alone. -/
theorem enqueueEvent_shape (code sev src : Nat) (par : List Byte) :
    ∃ e : EvtState, enqueueEvent s code sev src par = { s with evt := e } := by
  unfold enqueueEvent
  split
  · exact ⟨_, rfl⟩
  · exact ⟨_, rfl⟩

theorem records_enqueueEvent (code sev src : Nat) (par : List Byte) : Records s (enqueueEvent s code sev src par) := by
  obtain ⟨e, h⟩ := enqueueEvent_shape s code sev src par
  rw [h]
  exact records_evt s e

theorem records_postSummary (w : EvWindow) : Records s (postSummary s w) := by
  unfold postSummary
  dsimp only
  split
  · exact (records_loseEvent s).trans (records_recorderCommit _ 4)
  · exact records_enqueueEvent s _ _ _ _

theorem records_closeWindow (key : Option W16) : Records s (closeWindow s key) := by
  unfold closeWindow
  split
  · exact .refl s
  · split
    · dsimp only
      split
      · exact records_evt s _
      · exact (records_evt s _).trans (records_postSummary _ _)
    · exact .refl s

/-- What posting an event can do. -/
theorem records_postEvent (code sev src : Nat) (par : List Byte) : Records s (postEvent s code sev src par) := by
  unfold postEvent
  dsimp only
  refine (records_closeWindow s (windowKey s code)).trans ?_
  split
  · split
    · exact (records_evt _ _).trans (records_loseEvent _)
    · exact (records_evt _ _).trans (records_enqueueEvent _ _ _ _ _)
  · exact records_evt _ _

theorem records_postDev (code block : Nat) (par : List Byte) : Records s (postDev s code block par) := records_postEvent s _ _ _ _

theorem records_postTask (code t : Nat) (par : List Byte) : Records s (postTask s code t par) := records_postEvent s _ _ _ _

/-- Ordering the events of one clock changes the recorder's queue alone. -/
theorem inOneClock_shape (t : State) : ∃ q, inOneClock s t = { t with evt := { t.evt with queue := q } } := by
  unfold inOneClock
  dsimp only
  split
  · exact ⟨t.evt.queue, rfl⟩
  · exact ⟨_, rfl⟩

/-- Fewer than two new events need no order. -/
theorem inOneClock_few {t : State} (h : t.evt.queue.length < s.evt.queue.length + 2) : inOneClock s t = t := by
  unfold inOneClock
  dsimp only
  rw [if_pos]
  rw [List.length_drop]
  omega

/-- Posting keeps the pillar's memory canonical. -/
theorem wf_postEvent (code sev src : Nat) (par : List Byte) (h : Memory.wf s.pil.sram = true) :
    Memory.wf (postEvent s code sev src par).pil.sram = true := (records_postEvent s _ _ _ _).wf h

theorem wf_postDev (code block : Nat) (par : List Byte) (h : Memory.wf s.pil.sram = true) :
    Memory.wf (postDev s code block par).pil.sram = true := wf_postEvent s _ _ _ _ h

section

variable (i : Fin 16)

@[simp] theorem notifySeam_sys : (notifySeam s i).sys = s.sys := rfl
@[simp] theorem notifySeam_cht : (notifySeam s i).cht = s.cht := rfl
@[simp] theorem notifySeam_seq : (notifySeam s i).seq = s.seq := rfl
@[simp] theorem notifySeam_laneA : (notifySeam s i).laneA = s.laneA := rfl
@[simp] theorem notifySeam_laneB : (notifySeam s i).laneB = s.laneB := rfl
@[simp] theorem notifySeam_tram : (notifySeam s i).tram = s.tram := rfl
@[simp] theorem notifySeam_asy : (notifySeam s i).asy = s.asy := rfl
@[simp] theorem notifySeam_tly : (notifySeam s i).tly = s.tly := rfl
@[simp] theorem notifySeam_wdt : (notifySeam s i).wdt = s.wdt := rfl
@[simp] theorem notifySeam_pair : (notifySeam s i).pair = s.pair := rfl
@[simp] theorem notifySeam_hf : (notifySeam s i).hf = s.hf := rfl
@[simp] theorem notifySeam_msg : (notifySeam s i).msg = s.msg := rfl
@[simp] theorem notifySeam_fld : (notifySeam s i).fld = s.fld := rfl
@[simp] theorem notifySeam_fd : (notifySeam s i).fd = s.fd := rfl
@[simp] theorem notifySeam_mb : (notifySeam s i).mb = s.mb := rfl
@[simp] theorem notifySeam_ing : (notifySeam s i).ing = s.ing := rfl
@[simp] theorem notifySeam_host : (notifySeam s i).host = s.host := rfl
@[simp] theorem notifySeam_obt : (notifySeam s i).obt = s.obt := rfl
@[simp] theorem notifySeam_age : (notifySeam s i).age = s.age := rfl
@[simp] theorem notifySeam_hlt : (notifySeam s i).hlt = s.hlt := rfl
@[simp] theorem notifySeam_bkp : (notifySeam s i).bkp = s.bkp := rfl
@[simp] theorem notifySeam_fuses : (notifySeam s i).fuses = s.fuses := rfl
@[simp] theorem notifySeam_flash : (notifySeam s i).flash = s.flash := rfl
@[simp] theorem notifySeam_xsp : (notifySeam s i).xsp = s.xsp := rfl
@[simp] theorem notifySeam_sec : (notifySeam s i).sec = s.sec := rfl
@[simp] theorem notifySeam_tap : (notifySeam s i).tap = s.tap := rfl
@[simp] theorem notifySeam_sup : (notifySeam s i).sup = s.sup := rfl
@[simp] theorem notifySeam_unitFault : (notifySeam s i).unitFault = s.unitFault := rfl
@[simp] theorem notifySeam_free : (notifySeam s i).free = s.free := rfl
@[simp] theorem notifySeam_pending : (notifySeam s i).pending = s.pending := rfl
@[simp] theorem notifySeam_evt : (notifySeam s i).evt = s.evt := rfl
@[simp] theorem notifySeam_pil : (notifySeam s i).pil = s.pil := rfl
@[simp] theorem notifySeam_held : (notifySeam s i).seam.held = s.seam.held := rfl
@[simp] theorem notifySeam_lock : (notifySeam s i).clk.lock = s.clk.lock := rfl

end

section

variable (code sev src : Nat) (par : List Byte)

@[simp] theorem postEvent_sys : (postEvent s code sev src par).sys = s.sys := by rw [(records_postEvent s code sev src par).eq]
@[simp] theorem postEvent_cht : (postEvent s code sev src par).cht = s.cht := by rw [(records_postEvent s code sev src par).eq]
@[simp] theorem postEvent_seq : (postEvent s code sev src par).seq = s.seq := by rw [(records_postEvent s code sev src par).eq]
@[simp] theorem postEvent_laneA : (postEvent s code sev src par).laneA = s.laneA := by rw [(records_postEvent s code sev src par).eq]
@[simp] theorem postEvent_laneB : (postEvent s code sev src par).laneB = s.laneB := by rw [(records_postEvent s code sev src par).eq]
@[simp] theorem postEvent_tram : (postEvent s code sev src par).tram = s.tram := by rw [(records_postEvent s code sev src par).eq]
@[simp] theorem postEvent_asy : (postEvent s code sev src par).asy = s.asy := by rw [(records_postEvent s code sev src par).eq]
@[simp] theorem postEvent_tly : (postEvent s code sev src par).tly = s.tly := by rw [(records_postEvent s code sev src par).eq]
@[simp] theorem postEvent_wdt : (postEvent s code sev src par).wdt = s.wdt := by rw [(records_postEvent s code sev src par).eq]
@[simp] theorem postEvent_pair : (postEvent s code sev src par).pair = s.pair := by rw [(records_postEvent s code sev src par).eq]
@[simp] theorem postEvent_hf : (postEvent s code sev src par).hf = s.hf := by rw [(records_postEvent s code sev src par).eq]
@[simp] theorem postEvent_msg : (postEvent s code sev src par).msg = s.msg := by rw [(records_postEvent s code sev src par).eq]
@[simp] theorem postEvent_fld : (postEvent s code sev src par).fld = s.fld := by rw [(records_postEvent s code sev src par).eq]
@[simp] theorem postEvent_fd : (postEvent s code sev src par).fd = s.fd := by rw [(records_postEvent s code sev src par).eq]
@[simp] theorem postEvent_mb : (postEvent s code sev src par).mb = s.mb := by rw [(records_postEvent s code sev src par).eq]
@[simp] theorem postEvent_ing : (postEvent s code sev src par).ing = s.ing := by rw [(records_postEvent s code sev src par).eq]
@[simp] theorem postEvent_host : (postEvent s code sev src par).host = s.host := by rw [(records_postEvent s code sev src par).eq]
@[simp] theorem postEvent_obt : (postEvent s code sev src par).obt = s.obt := by rw [(records_postEvent s code sev src par).eq]
@[simp] theorem postEvent_age : (postEvent s code sev src par).age = s.age := by rw [(records_postEvent s code sev src par).eq]
@[simp] theorem postEvent_hlt : (postEvent s code sev src par).hlt = s.hlt := by rw [(records_postEvent s code sev src par).eq]
@[simp] theorem postEvent_bkp : (postEvent s code sev src par).bkp = s.bkp := by rw [(records_postEvent s code sev src par).eq]
@[simp] theorem postEvent_fuses : (postEvent s code sev src par).fuses = s.fuses := by rw [(records_postEvent s code sev src par).eq]
@[simp] theorem postEvent_flash : (postEvent s code sev src par).flash = s.flash := by rw [(records_postEvent s code sev src par).eq]
@[simp] theorem postEvent_xsp : (postEvent s code sev src par).xsp = s.xsp := by rw [(records_postEvent s code sev src par).eq]
@[simp] theorem postEvent_sec : (postEvent s code sev src par).sec = s.sec := by rw [(records_postEvent s code sev src par).eq]
@[simp] theorem postEvent_tap : (postEvent s code sev src par).tap = s.tap := by rw [(records_postEvent s code sev src par).eq]
@[simp] theorem postEvent_sup : (postEvent s code sev src par).sup = s.sup := by rw [(records_postEvent s code sev src par).eq]
@[simp] theorem postEvent_unitFault : (postEvent s code sev src par).unitFault = s.unitFault := by rw [(records_postEvent s code sev src par).eq]
@[simp] theorem postEvent_free : (postEvent s code sev src par).free = s.free := by rw [(records_postEvent s code sev src par).eq]
@[simp] theorem postEvent_pending : (postEvent s code sev src par).pending = s.pending := by rw [(records_postEvent s code sev src par).eq]
@[simp] theorem postEvent_held : (postEvent s code sev src par).seam.held = s.seam.held := by rw [(records_postEvent s code sev src par).seam]
@[simp] theorem postEvent_lock : (postEvent s code sev src par).clk.lock = s.clk.lock := by rw [(records_postEvent s code sev src par).eq]
@[simp] theorem postEvent_pfw : (postEvent s code sev src par).pil.pfw = s.pil.pfw := (records_postEvent s code sev src par).pfw
@[simp] theorem postDev_sys : (postDev s code src par).sys = s.sys := postEvent_sys s _ _ _ _
@[simp] theorem postDev_cht : (postDev s code src par).cht = s.cht := postEvent_cht s _ _ _ _
@[simp] theorem postDev_seq : (postDev s code src par).seq = s.seq := postEvent_seq s _ _ _ _
@[simp] theorem postDev_laneA : (postDev s code src par).laneA = s.laneA := postEvent_laneA s _ _ _ _
@[simp] theorem postDev_laneB : (postDev s code src par).laneB = s.laneB := postEvent_laneB s _ _ _ _
@[simp] theorem postDev_tram : (postDev s code src par).tram = s.tram := postEvent_tram s _ _ _ _
@[simp] theorem postDev_asy : (postDev s code src par).asy = s.asy := postEvent_asy s _ _ _ _
@[simp] theorem postDev_tly : (postDev s code src par).tly = s.tly := postEvent_tly s _ _ _ _
@[simp] theorem postDev_wdt : (postDev s code src par).wdt = s.wdt := postEvent_wdt s _ _ _ _
@[simp] theorem postDev_pair : (postDev s code src par).pair = s.pair := postEvent_pair s _ _ _ _
@[simp] theorem postDev_hf : (postDev s code src par).hf = s.hf := postEvent_hf s _ _ _ _
@[simp] theorem postDev_msg : (postDev s code src par).msg = s.msg := postEvent_msg s _ _ _ _
@[simp] theorem postDev_fld : (postDev s code src par).fld = s.fld := postEvent_fld s _ _ _ _
@[simp] theorem postDev_fd : (postDev s code src par).fd = s.fd := postEvent_fd s _ _ _ _
@[simp] theorem postDev_mb : (postDev s code src par).mb = s.mb := postEvent_mb s _ _ _ _
@[simp] theorem postDev_ing : (postDev s code src par).ing = s.ing := postEvent_ing s _ _ _ _
@[simp] theorem postDev_host : (postDev s code src par).host = s.host := postEvent_host s _ _ _ _
@[simp] theorem postDev_obt : (postDev s code src par).obt = s.obt := postEvent_obt s _ _ _ _
@[simp] theorem postDev_age : (postDev s code src par).age = s.age := postEvent_age s _ _ _ _
@[simp] theorem postDev_hlt : (postDev s code src par).hlt = s.hlt := postEvent_hlt s _ _ _ _
@[simp] theorem postDev_bkp : (postDev s code src par).bkp = s.bkp := postEvent_bkp s _ _ _ _
@[simp] theorem postDev_fuses : (postDev s code src par).fuses = s.fuses := postEvent_fuses s _ _ _ _
@[simp] theorem postDev_flash : (postDev s code src par).flash = s.flash := postEvent_flash s _ _ _ _
@[simp] theorem postDev_xsp : (postDev s code src par).xsp = s.xsp := postEvent_xsp s _ _ _ _
@[simp] theorem postDev_sec : (postDev s code src par).sec = s.sec := postEvent_sec s _ _ _ _
@[simp] theorem postDev_tap : (postDev s code src par).tap = s.tap := postEvent_tap s _ _ _ _
@[simp] theorem postDev_sup : (postDev s code src par).sup = s.sup := postEvent_sup s _ _ _ _
@[simp] theorem postDev_unitFault : (postDev s code src par).unitFault = s.unitFault := postEvent_unitFault s _ _ _ _
@[simp] theorem postDev_free : (postDev s code src par).free = s.free := postEvent_free s _ _ _ _
@[simp] theorem postDev_pending : (postDev s code src par).pending = s.pending := postEvent_pending s _ _ _ _
@[simp] theorem postDev_held : (postDev s code src par).seam.held = s.seam.held := postEvent_held s _ _ _ _
@[simp] theorem postDev_lock : (postDev s code src par).clk.lock = s.clk.lock := postEvent_lock s _ _ _ _
@[simp] theorem postDev_pfw : (postDev s code src par).pil.pfw = s.pil.pfw := postEvent_pfw s _ _ _ _
@[simp] theorem postTask_sys : (postTask s code src par).sys = s.sys := postEvent_sys s _ _ _ _
@[simp] theorem postTask_cht : (postTask s code src par).cht = s.cht := postEvent_cht s _ _ _ _
@[simp] theorem postTask_seq : (postTask s code src par).seq = s.seq := postEvent_seq s _ _ _ _
@[simp] theorem postTask_laneA : (postTask s code src par).laneA = s.laneA := postEvent_laneA s _ _ _ _
@[simp] theorem postTask_laneB : (postTask s code src par).laneB = s.laneB := postEvent_laneB s _ _ _ _
@[simp] theorem postTask_tram : (postTask s code src par).tram = s.tram := postEvent_tram s _ _ _ _
@[simp] theorem postTask_asy : (postTask s code src par).asy = s.asy := postEvent_asy s _ _ _ _
@[simp] theorem postTask_tly : (postTask s code src par).tly = s.tly := postEvent_tly s _ _ _ _
@[simp] theorem postTask_wdt : (postTask s code src par).wdt = s.wdt := postEvent_wdt s _ _ _ _
@[simp] theorem postTask_pair : (postTask s code src par).pair = s.pair := postEvent_pair s _ _ _ _
@[simp] theorem postTask_hf : (postTask s code src par).hf = s.hf := postEvent_hf s _ _ _ _
@[simp] theorem postTask_msg : (postTask s code src par).msg = s.msg := postEvent_msg s _ _ _ _
@[simp] theorem postTask_fld : (postTask s code src par).fld = s.fld := postEvent_fld s _ _ _ _
@[simp] theorem postTask_fd : (postTask s code src par).fd = s.fd := postEvent_fd s _ _ _ _
@[simp] theorem postTask_mb : (postTask s code src par).mb = s.mb := postEvent_mb s _ _ _ _
@[simp] theorem postTask_ing : (postTask s code src par).ing = s.ing := postEvent_ing s _ _ _ _
@[simp] theorem postTask_host : (postTask s code src par).host = s.host := postEvent_host s _ _ _ _
@[simp] theorem postTask_obt : (postTask s code src par).obt = s.obt := postEvent_obt s _ _ _ _
@[simp] theorem postTask_age : (postTask s code src par).age = s.age := postEvent_age s _ _ _ _
@[simp] theorem postTask_hlt : (postTask s code src par).hlt = s.hlt := postEvent_hlt s _ _ _ _
@[simp] theorem postTask_bkp : (postTask s code src par).bkp = s.bkp := postEvent_bkp s _ _ _ _
@[simp] theorem postTask_fuses : (postTask s code src par).fuses = s.fuses := postEvent_fuses s _ _ _ _
@[simp] theorem postTask_flash : (postTask s code src par).flash = s.flash := postEvent_flash s _ _ _ _
@[simp] theorem postTask_xsp : (postTask s code src par).xsp = s.xsp := postEvent_xsp s _ _ _ _
@[simp] theorem postTask_sec : (postTask s code src par).sec = s.sec := postEvent_sec s _ _ _ _
@[simp] theorem postTask_tap : (postTask s code src par).tap = s.tap := postEvent_tap s _ _ _ _
@[simp] theorem postTask_sup : (postTask s code src par).sup = s.sup := postEvent_sup s _ _ _ _
@[simp] theorem postTask_unitFault : (postTask s code src par).unitFault = s.unitFault := postEvent_unitFault s _ _ _ _
@[simp] theorem postTask_free : (postTask s code src par).free = s.free := postEvent_free s _ _ _ _
@[simp] theorem postTask_pending : (postTask s code src par).pending = s.pending := postEvent_pending s _ _ _ _

end

/-! ### Roles, frames for the partner, and the unit fault reaction -/

/-- A frame queued for the partner changes the transmit queue alone. -/
theorem queueFrame_shape (f : TxFrame) :
    queueFrame s f = { s with pair := { s.pair with txQueue := if linkUp s then s.pair.txQueue ++ [f] else s.pair.txQueue } } := by
  unfold queueFrame
  split <;> rfl

/-- What a role written can change: the role, the condition of its vector, and what its notification changes. -/
theorem setRole_shape (r : Role) : ∃ n m g, setRole s r =
    { s with pair := { s.pair with role := r }, hf := { s.hf with noteRole := n }, seam := m, clk := { s.clk with gate := g } } := by
  unfold setRole
  split
  · next h => exact ⟨s.hf.noteRole, s.seam, s.clk.gate, by rw [← h]⟩
  · exact ⟨_, _, _, rfl⟩

@[simp] theorem setRole_role (r : Role) : (setRole s r).pair.role = r := by
  obtain ⟨n, m, g, h⟩ := setRole_shape s r
  rw [h]

/-- A unit fault at a part that is FAULTED only records its event. -/
theorem unitFault_again (cls task code : Nat) (h : s.pair.role = .faulted) :
    unitFault s cls task code = postDev s 0x0006 0 (leBytes 1 cls ++ leBytes 1 task ++ leBytes 2 code) := by
  unfold unitFault
  rw [if_pos h]

/-- All that the unit fault reaction can change: what recording changes, the pair's state, the Headframe's note, the lanes' stop, the
verdicts' gate, the waiting command frame and the fault record. -/
structure FaultReaction (s t : State) : Prop where
  eq : t = { s with
    evt := t.evt, pil := t.pil, seam := t.seam, clk := { s.clk with gate := t.clk.gate }, pair := t.pair
    hf := { s.hf with noteRole := t.hf.noteRole }, laneA := { s.laneA with stopped := t.laneA.stopped }
    laneB := { s.laneB with stopped := t.laneB.stopped }, asy := t.asy, fld := t.fld, unitFault := t.unitFault }
  wf : Memory.wf s.pil.sram = true → Memory.wf t.pil.sram = true
  role : t.pair.role = .faulted

/-- What recording a fault changes, the reaction may change. -/
theorem Records.reaction {s t : State} (h : Records s t) (hr : s.pair.role = .faulted) : FaultReaction s t where
  eq := h.eq.trans (by rw [h.eq])
  wf := h.wf
  role := by rw [h.eq]; exact hr

/-- The end of the unit fault reaction, once the role is FAULTED. -/
def faultTail (s3 : State) (cls task code : Nat) : State :=
  let s4 := s3.modLanes (fun l => { l with stopped := true })
  dueCommand { s4 with
    asy := { s4.asy with gate := false, opened := false }
    pair := { s4.pair with
      withdrawing := true, demoting := false, take := none, retake := none, handSent := false, resyncLeft := none, trigger := none }
    unitFault := some ⟨cls, task, BitVec.ofNat 16 code⟩ }

/-- The unit fault reaction at a part that is not FAULTED yet. -/
theorem unitFault_tail (cls task code : Nat) (h : s.pair.role ≠ .faulted) :
    unitFault s cls task code =
      let s0 := postDev s 0x0006 0 (leBytes 1 cls ++ leBytes 1 task ++ leBytes 2 code)
      faultTail (setRole (queueFrame (if s.pair.role = .handIn ∨ s.pair.role = .standby ∧ s.pair.prole = .handOut then
        queueFrame s0 (.abort 4) else s0)
        (.fault (BitVec.ofNat 8 cls) (BitVec.ofNat 8 task) (BitVec.ofNat 16 code))) .faulted) cls task code := by
  unfold unitFault
  rw [if_neg h]
  rfl

/-- The tail over a state that recording and the link's queue have changed. -/
theorem reaction_faultTail {s u v : State} (f : TxFrame) (cls task code : Nat) (h : Records s u) (hv : ∃ p, v = { u with pair := p }) :
    FaultReaction s (faultTail (setRole (queueFrame v f) .faulted) cls task code) := by
  obtain ⟨p, rfl⟩ := hv
  obtain ⟨n, m, g, hr⟩ := setRole_shape (queueFrame { u with pair := p } f) .faulted
  rw [hr, queueFrame_shape]
  exact ⟨by rw [h.eq]; rfl, h.wf, rfl⟩

/-- What a unit fault can change. -/
theorem reaction_unitFault (cls task code : Nat) : FaultReaction s (Machine.unitFault s cls task code) := by
  by_cases hr : s.pair.role = .faulted
  · rw [unitFault_again s cls task code hr]
    exact (records_postDev s _ _ _).reaction hr
  · rw [unitFault_tail s cls task code hr]
    have h := records_postDev s 0x0006 0 (leBytes 1 cls ++ leBytes 1 task ++ leBytes 2 code)
    generalize postDev s 0x0006 0 (leBytes 1 cls ++ leBytes 1 task ++ leBytes 2 code) = u at h ⊢
    refine reaction_faultTail _ cls task code h ?_
    split
    · exact ⟨_, queueFrame_shape u (.abort 4)⟩
    · exact ⟨u.pair, rfl⟩

section

variable (cls task code : Nat)

@[simp] theorem unitFault_role : (Machine.unitFault s cls task code).pair.role = .faulted := (reaction_unitFault s cls task code).role
@[simp] theorem unitFault_sys : (Machine.unitFault s cls task code).sys = s.sys := by rw [(reaction_unitFault s cls task code).eq]
@[simp] theorem unitFault_cht : (Machine.unitFault s cls task code).cht = s.cht := by rw [(reaction_unitFault s cls task code).eq]
@[simp] theorem unitFault_seq : (Machine.unitFault s cls task code).seq = s.seq := by rw [(reaction_unitFault s cls task code).eq]
@[simp] theorem unitFault_tram : (Machine.unitFault s cls task code).tram = s.tram := by rw [(reaction_unitFault s cls task code).eq]
@[simp] theorem unitFault_tly : (Machine.unitFault s cls task code).tly = s.tly := by rw [(reaction_unitFault s cls task code).eq]
@[simp] theorem unitFault_wdt : (Machine.unitFault s cls task code).wdt = s.wdt := by rw [(reaction_unitFault s cls task code).eq]
@[simp] theorem unitFault_msg : (Machine.unitFault s cls task code).msg = s.msg := by rw [(reaction_unitFault s cls task code).eq]
@[simp] theorem unitFault_fd : (Machine.unitFault s cls task code).fd = s.fd := by rw [(reaction_unitFault s cls task code).eq]
@[simp] theorem unitFault_mb : (Machine.unitFault s cls task code).mb = s.mb := by rw [(reaction_unitFault s cls task code).eq]
@[simp] theorem unitFault_ing : (Machine.unitFault s cls task code).ing = s.ing := by rw [(reaction_unitFault s cls task code).eq]
@[simp] theorem unitFault_host : (Machine.unitFault s cls task code).host = s.host := by rw [(reaction_unitFault s cls task code).eq]
@[simp] theorem unitFault_obt : (Machine.unitFault s cls task code).obt = s.obt := by rw [(reaction_unitFault s cls task code).eq]
@[simp] theorem unitFault_age : (Machine.unitFault s cls task code).age = s.age := by rw [(reaction_unitFault s cls task code).eq]
@[simp] theorem unitFault_hlt : (Machine.unitFault s cls task code).hlt = s.hlt := by rw [(reaction_unitFault s cls task code).eq]
@[simp] theorem unitFault_bkp : (Machine.unitFault s cls task code).bkp = s.bkp := by rw [(reaction_unitFault s cls task code).eq]
@[simp] theorem unitFault_fuses : (Machine.unitFault s cls task code).fuses = s.fuses := by rw [(reaction_unitFault s cls task code).eq]
@[simp] theorem unitFault_flash : (Machine.unitFault s cls task code).flash = s.flash := by rw [(reaction_unitFault s cls task code).eq]
@[simp] theorem unitFault_xsp : (Machine.unitFault s cls task code).xsp = s.xsp := by rw [(reaction_unitFault s cls task code).eq]
@[simp] theorem unitFault_sec : (Machine.unitFault s cls task code).sec = s.sec := by rw [(reaction_unitFault s cls task code).eq]
@[simp] theorem unitFault_tap : (Machine.unitFault s cls task code).tap = s.tap := by rw [(reaction_unitFault s cls task code).eq]
@[simp] theorem unitFault_sup : (Machine.unitFault s cls task code).sup = s.sup := by rw [(reaction_unitFault s cls task code).eq]
@[simp] theorem unitFault_free : (Machine.unitFault s cls task code).free = s.free := by rw [(reaction_unitFault s cls task code).eq]
@[simp] theorem unitFault_pending : (Machine.unitFault s cls task code).pending = s.pending := by rw [(reaction_unitFault s cls task code).eq]

theorem wf_unitFault (h : Memory.wf s.pil.sram = true) : Memory.wf (Machine.unitFault s cls task code).pil.sram = true :=
  (reaction_unitFault s cls task code).wf h

end

/-- A detected fault is nothing more than the reaction, with one free value taken for the CODE that R609 does not give. -/
theorem detected_cases (cls : Nat) : detected s cls = s ∨ detected s cls = Machine.unitFault s.takeFree.1 cls 0xFF (Config.freeCode s.free).toNat := by
  unfold detected detectedFault
  split
  · split
    · exact .inl rfl
    · exact .inr rfl
  · exact .inl rfl

/-- Outside a recovery and a handover a detected fault only stands as recorded. -/
theorem detected_quiet {cls : Nat} (h : s.asy.recovery = false) (hr : handsOver s = false) : detected s cls = s := by
  simp [detected, h, hr]

/-! ### Port accesses -/

/-- Opening gates changes the gates alone. -/
theorem openGates_shape : ∀ (is : List Island) (s : State), ∃ g, is.foldl openGate s = { s with clk := { s.clk with gate := g } }
  | [], s => ⟨s.clk.gate, rfl⟩
  | i :: r, s => openGates_shape r (openGate s i)

/-- Opening the gates of a block's islands changes the gates alone. -/
theorem openBlockGate_shape (a : Nat) : ∃ g, openBlockGate s a = { s with clk := { s.clk with gate := g } } :=
  openGates_shape (blockIslands (a / 0x200)) s

/-- A write of the Headframe's code outside the expert half has its effect, with the gate of the block open. -/
theorem gatedWrite_plain {a : Nat} {effect : State → State} (h : isExpert a = false) :
    gatedWrite s a false effect = effect (openBlockGate s a) := by
  simp [gatedWrite, h]

/-- An expert write with its grant. -/
theorem gatedWrite_granted {a : Nat} {effect : State → State} (h : expertGranted s a = true) :
    gatedWrite s a false effect = effect (openBlockGate s a) := by
  simp [gatedWrite, h]

/-- An expert write without a grant. -/
theorem gatedWrite_denied {a : Nat} {effect : State → State} (h : isExpert a = true) (hs : a / 0x200 ≠ 21)
    (hg : expertGranted s a = false) : gatedWrite s a false effect = expertDenied s a := by
  simp [gatedWrite, h, hs, hg]

/-- A write of the partition that the map refuses. -/
theorem gatedWrite_refused {a : Nat} {effect : State → State} (h : portPermitted s a true = false) :
    gatedWrite s a true effect = hfFault s 3 a := by
  simp [gatedWrite, h]

/-- Everything a confined port write can do. -/
theorem gatedWrite_cases (a : Nat) (p : Bool) (effect : State → State) :
    gatedWrite s a p effect = hfFault s 3 a ∨ gatedWrite s a p effect = expertDenied s a ∨
      gatedWrite s a p effect = effect (openBlockGate s a) := by
  unfold gatedWrite
  split
  · exact .inl rfl
  · split
    · exact .inr (.inl rfl)
    · exact .inr (.inr rfl)

theorem gatedRead_plain {a : Nat} {effect : State → State} : gatedRead s a false effect = effect (openBlockGate s a) := by
  simp [gatedRead]

/-- Everything a confined port read can do. -/
theorem gatedRead_cases (a : Nat) (p : Bool) (effect : State → State) :
    gatedRead s a p effect = { s with hf := { s.hf with portIn := 0 } } ∨ gatedRead s a p effect = hfFault s 3 a ∨
      gatedRead s a p effect = effect (openBlockGate s a) := by
  unfold gatedRead
  split
  · exact .inl rfl
  · split
    · exact .inr (.inl rfl)
    · exact .inr (.inr rfl)

/-! ### Page commits -/

/-- What a commit can do. -/
theorem records_pilCommit (m : Master) (page : Nat) (data : List Byte) : Records s (pilCommit s m page data).1 := by
  unfold pilCommit
  dsimp only
  split
  · exact records_writePage s _ _
  · exact records_refuseCommit s _

/-- A page without an uncorrectable group is read without a fault. -/
theorem readPage_good {page : Nat} (h : ∀ g ∈ s.pil.bad, g / 8 ≠ page) : readPage s page = correctPages s (· == page) := by
  unfold readPage readPages
  have : s.pil.bad.filter (fun g => g / 8 == page) = [] := by
    rw [List.filter_eq_nil_iff]
    intro g hg
    simpa using h g hg
  rw [this]
  rfl

theorem records_correctPages (f : Nat → Bool) : Records s (correctPages s f) := ⟨rfl, id, rfl, rfl, rfl, rfl, rfl⟩

/-- A group that vendor firmware commits into a page that reads well changes only what recording changes. -/
theorem records_firmwareCommit (a : Nat) (bytes : List Byte) (h : ∀ g ∈ s.pil.bad, g / 8 ≠ a / 64) :
    Records s (firmwareCommit s a bytes).1 := by
  unfold firmwareCommit
  dsimp only
  rw [readPage_good s h]
  refine (records_correctPages s (· == a / 64)).trans (.trans ?_ (records_pilCommit _ _ _ _))
  exact ⟨rfl, id, rfl, rfl, rfl, rfl, rfl⟩

/-! ### The frame of a Headframe instruction -/

/-- Nothing happens while the Headframe does not fetch. -/
theorem hfStep_idle {c : HCond} {body : State → State} (h : hfFetches s = false) : hfStep c s body = .next s := by
  simp [hfStep, h]

/-- A condition that holds: the body acts, the step of a debugger used up. -/
theorem hfStep_runs {c : HCond} {body : State → State} (h : hfFetches s = true) (hc : hcondHolds s c = true) :
    hfStep c s body = .next (body (s.modHf (fun h => { h with stepOne := false }))) := by
  simp [hfStep, h, hc]

/-- A condition that does not hold: only PC advances. -/
theorem hfStep_skip {c : HCond} {body : State → State} (h : hfFetches s = true) (hc : hcondHolds s c = false) :
    hfStep c s body = .next (hfNext (s.modHf (fun h => { h with stepOne := false }))) := by
  simp [hfStep, h, hc]

end Sys2Proof.Laws
end

