-- ==== Sys2Proof/Tests/Slice0.lean ====
section
/-! SUPPORT. Tests: what WellFormed refuses, small facts about one step whose expected values come from the rules, and, for every
statement with hypotheses, a theorem that shows states and operands which meet them. -/

namespace Sys2Proof.Tests

set_option Elab.async false

open Sys2Proof Sys2Proof.Machine Sys2Proof.Safety

/-! ### Small states -/

/-- A charter head; in split mode or paired. -/
def head (split : Bool) : CharterHead where
  generation := 1
  serial := 0
  minFw := 0
  split := split
  scrubDis := false
  offset := 64
  checkpoint := 0
  div := [2, 2, 4, 4, 4, 5, 10, 20, 25, 40]
  ref := 0
  xoscWin := 7
  rampStep := 256
  wdtPeriod := 100
  wdtClk := 0
  silenceMs := 10
  evtK := 10
  evtW := 10
  ageFlags := 3
  ageLife := 0
  ageVmax := 20
  grants := BitVec.allOnes 32
  keyix := 0
  pubkey := []
  pairHash := []
  hash := []

/-- Task 0: budget 1,000, minimum gap 10, floor 100, snapshot delay 5, context segment 2, two overruns in a row. -/
def task0 : TaskRec := ⟨0, true, false, 2, 1000, 10, 100, 5, 2, 0, 0, [0, 1]⟩

/-- A CODE segment, a tracked SCRATCH segment and a context segment for both lanes, one task and a program of 64 instructions. -/
def charter (split : Bool) : Charter where
  head := head split
  segs := [⟨3, 5, 4, 0xFF, 0x200000, 64, 0⟩, ⟨3, 7, 0xB, 0, 0x100, 64, 1⟩, ⟨3, 8, 0, 0, 0x200, 24, 2⟩]
  tasks := [task0]
  tally := []
  ingress := [⟨3, 0, 0, 0, 0, 1, 1, 20, 8, 0⟩]
  egress := [⟨1, 0, 0, 0, 0, 1, 0⟩, ⟨2, 0, 0, 0, 0, 1, 1⟩]
  field := []
  buses := [⟨0, 0, 0, 0, 0, [(0, 0), (1, 1)]⟩]
  pair := if split then none else some ⟨0, 0, 5⟩
  pillar := []
  events := []
  monitors := []
  edits := []
  programs := [⟨3, 64, []⟩]
  frames := []

/-- An open cycle of task 0, past its snapshot instant, executed in full. -/
def cyc : LCycle where
  number := 7
  sk := 100
  tk := 105
  tkStamp := some 1
  fc := false
  fw := false
  insts := []
  cur := 0
  pass := .full
  hold := .run
  fresh := false
  saved := false
  fwd := 0
  fwd13 := 0
  fwd14 := 0
  fwdCtx := Ctx.init
  fwdHold := .run
  resumed := false
  replayCount := 0
  replayLimit := 0
  prevWrites := []
  curWrites := []
  truncated := false
  elem := 0
  reopened := false
  svcOrd := 0
  ovr := 0
  fallback := 0
  tokenEn := false
  fold := 0
  nrec := 0
  uw := []
  tramBusy := false
  tramStarted := false
  tramDst := []
  shadow := []
  moved := []

/-- Registers at instruction 4, S0 the code and S1 the scratch segment. -/
def regs : Ctx := { Ctx.init with sel := (Vector.replicate 8 0).set 0 0x100 |>.set 1 0x101, pc := 4 }

/-- A lane that runs task 0 with the cycle and registers given; its program has rung blocks at 0, 16 and 32. -/
def laneWith (k : LCycle) (x : Ctx) : Lane :=
  { State.reset.laneA with
    cur := some 0, ctx := x, cycles := State.reset.laneA.cycles.set 0 (some k), stopped := false
    blocks := [⟨0, true, true⟩, ⟨16, true, true⟩, ⟨32, true, true⟩] }

/-- A part in the running state with the charter. -/
def running (split : Bool) : State :=
  { State.reset with
    cht := { State.reset.cht with charter := some (charter split) }
    sys := { State.reset.sys with state := .running, phase := .idle, warm := false }
    seq := { State.reset.seq with running := true, ut := 200, stamp := 2, delivery := [] }
    pair := { State.reset.pair with role := .active, claim := 3 }
    clk := { State.reset.clk with lock := true }
    asy := { State.reset.asy with gate := true, unpaired := false }
    laneA := { State.reset.laneA with stopped := false }
    laneB := { State.reset.laneB with stopped := false } }

/-- The same with task 0 in an open cycle on both lanes. -/
def atWork (split : Bool) (k : LCycle) (x : Ctx) : State :=
  let s := running split
  ({ s with laneA := laneWith k x, laneB := laneWith k x }).modTask 0 (fun t => { t with phase := .opened, number := 7, sk := 100 })

/-- A state in which a lane of its own executes: split mode. -/
def alone : State := atWork true cyc regs

/-- The same with values in the registers. -/
def aloneWith (x : List (Reg × W36)) : State := atWork true cyc { regs with x := x.foldl (fun v p => v.set p.1 p.2) regs.x }

theorem alone_runs : Runs alone .a .al 0 cyc := ⟨⟨by decide, by decide, by decide⟩, by decide, by decide⟩

theorem alone_runs_fence (eff : Bool) : RunsFence alone .a .al 0 cyc eff :=
  ⟨⟨by decide, by decide, by decide⟩, by decide, by cases eff <;> decide, by cases eff <;> decide, by decide⟩

/-! ### What WellFormed refuses -/

def env0 : StartEnv where
  testEn := false
  fuseDamaged := false
  bist := none
  injection := 0
  flash := none
  rereadDiffers := false
  reloadDiffers := false
  fieldCtlBad := false
  fieldRefs := List.replicate 32 (0, 0)
  fieldPulses := List.replicate 32 0
  imem := []
  latchParity := true
  tstart := 0

def frame0 : CanFrame := ⟨1, false, false, false, false, false, 2, [1, 2]⟩

def field0 : FieldRec := ⟨1, 40, 20, 0, false, false, false, 0, 0, 0⟩

def trailer0 : Trailer := ⟨0, false, false, 0, 7, 0, 0, 0⟩

/-- Bit indices above 35 (R192). -/
theorem test_wf_bits :
    [Instr.ld .a .al 0 0 36, .ldn .a .al 0 0 36, .and .a .al 0 0 63, .andn .a .al 0 0 36, .or .a .al 0 0 36, .orn .a .al 0 0 36,
      .xor .a .al 0 0 36, .xorn .a .al 0 0 36, .st .a .al 0 0 36, .stn .a .al 0 0 36, .set .a .al 0 0 36, .clr .a .al 0 0 36,
      .ped .a .al 0 0 36, .ned .a .al 0 0 36, .ldp .a .al 0 0 36, .ldnp .a .al 0 0 36, .ldxb .a .al 0 36, .stxb .a .al 0 36,
      .tstb .a .al 0 0 36].all (fun i => !i.wf) = true ∧ (Instr.ld .a .al 0 0 35).wf = true := by decide

/-- Pairs that name an odd register (R215). -/
theorem test_wf_pairs :
    [Instr.add72 .a .al 1 0 0, .add72 .a .al 0 1 0, .add72 .a .al 0 0 1, .sub72 .a .al 1 0 0, .neg72 .a .al 0 1, .mov72 .a .al 1 0,
      .mulw .a .al 1 0 0, .mulwu .a .al 3 0 0, .sext .a .al 1 0, .zext .a .al 1 0, .min72 .a .al 0 0 1, .max72 .a .al 0 1 0,
      .cmp72 .a .al 1 0, .lsl72 .a .al 1 0 (.imm 1), .lsr72 .a .al 0 1 (.imm 1), .asr72 .a .al 1 0 (.imm 1),
      .rol72 .a .al 1 0 (.imm 1), .ror72 .a .al 1 0 (.imm 1), .ldd .a .al 1 0 (.disp 0), .std .a .al 1 0 (.disp 0),
      .ton .a .al 0 1 0, .tof .a .al 0 1 0, .tp .a .al 0 1 0, .ctu .a .al 0 1 0, .ctd .a .al 0 1 0, .acc .a .al 0 1 0,
      .load .a .al 0 1 0, .gett .a .al 1].all (fun i => !i.wf) = true ∧ (Instr.mulw .a .al 0 1 3).wf = true := by decide

/-- Lengths, ranges and codes of the other operands. -/
theorem test_wf_operands :
    [Instr.coldStart { env0 with injection := 170 }, .warmStart { env0 with imem := [(0x8000, 0)] }, .standbyInjectionTest 170,
      .delta 0 false [] (some trailer0), .delta 0 false [(2 ^ 22, 0)] none, .resync 0 0 [], .hand 0 ⟨0, 0, 0, [], []⟩,
      .fieldConfigFrame 0 (.records [field0] 10 []), .fieldConfigFrame 0 (.records (List.replicate 32 field0) 0 []),
      .inputSample ⟨[0], []⟩,
      .canFrameReceived 0 { frame0 with data := [1] } ⟨0, []⟩, .canFrameReceived 0 { frame0 with rtr := true } ⟨0, []⟩, .hostRead 0 0,
      .hostRead 0 4097, .hostWrite 0 [], .hostWrite 1 [0, 0], .hostWrite 0 [0], .xspiUnsupportedCommand 0xEE,
      .obtumUnknown (.bus 0) 0 0x14, .marginPlanDue [], .ageCmd [] false, .laneRemeasure .a [], .pillarScrub ⟨[⟨2 ^ 20, true⟩], []⟩,
      .laneMemoryScrub .a ⟨[⟨0x220000, true⟩], []⟩, .laneMemoryScrub .a ⟨[], [.bit 0x220000]⟩, .bypass 0x20, .debugResponse 0 0 [] [], .burn 44 1,
      .lctlRead .a .al true 0 0x100].all (fun i => !i.wf) = true ∧
    [Instr.coldStart env0, .canFrameReceived 0 frame0 ⟨0, []⟩, .hostWrite 2 [0, 0], .burn 43 1, .bypass 0xFF,
      .delta 0 true [] (some trailer0)].all (·.wf) = true := by decide

/-- Sizes on the flash devices (R533, R538). -/
theorem test_wf_flash :
    (Instr.coldStart { env0 with flash := some { State.reset.flash with fwA := ⟨none, [List.replicate 4097 0]⟩ } }).wf = false ∧
    (Instr.coldStart { env0 with flash := some { State.reset.flash with chB := ⟨some ⟨0, 0, 0, 0, 0, [], [], 0, []⟩, []⟩ } }).wf = false := by
  decide +kernel

/-- The all-zero word and BIT 36 are encoding errors, LD of bit 35 is an instruction (R188, R190, R192); so for the Headframe with FN
of format A and the condition RS (R359, R360). -/
theorem test_wf_illegal : (Instr.illegalOp .a 0x008000023).wf = false ∧ (Instr.illegalOp .a 0x008000024).wf = true ∧
    (Instr.illegalOp .a 0).wf = true ∧ (Instr.hfIllegal 0x00400000).wf = false ∧ (Instr.hfIllegal 0x10400000).wf = true ∧
    (Instr.hfIllegal 0x00400014).wf = true := by decide

/-- Words of the program of R207, and a Headframe ADD, by their encodings (R207, R208, R359). -/
theorem test_words : laneWordRow .a 0x008801003 = .ld .a .al 1 0x40 3 ∧ laneWordRow .a 0x048000002 = .andp .a .al ∧
    laneWordRow .b 0x131800441 = .set .b .rs 3 0x11 1 ∧ hfWordRow 0x00448C00 = .hfAdd .al 1 2 3 := by decide +kernel

/-- The table gives its rows no bits, so no word spells a command. -/
theorem test_decode (nbits w : Nat) : decodeTableWord nbits w = none ∧ alone.withFetchWord nbits w = alone := ⟨rfl, rfl⟩

/-! ### Lanes: one step, and states that meet the hypotheses of their statements -/

/-- The registers of Lane A after a command. -/
def ctxOf (o : Out) : Option Ctx := match o with | .next u => some u.laneA.ctx | _ => none

def regOf (o : Out) (r : Reg) : Option W36 := (ctxOf o).map (fun x => x.x[r])

/-- The fault code of the report after a command. -/
def faultOf (o : Out) : Option Nat := match o with | .next u => some u.seq.fltCode.toNat | _ => none

/-- ADD of 2^36 - 1 and 1 gives 0 with Z and C (R185, R213). -/
theorem test_add_wraps : (ctxOf (exec (.add .a .al 2 0 1) (aloneWith [(0, BitVec.allOnes 36), (1, 1)]))).map
    (fun x => (x.x[(2 : Reg)], x.n, x.z, x.c, x.v, x.pc)) = some (0, false, true, true, false, 5) := by decide

/-- CMP of equal words sets C, the no-borrow convention (R185). -/
theorem test_cmp_equal : (ctxOf (exec (.cmp .a .al 0 1) (aloneWith [(0, 7), (1, 7)]))).map (fun x => (x.z, x.c)) = some (true, true) := by
  decide

/-- DIV of the minimum value by -1 gives that value with V (R214). -/
theorem test_div_minimum : (ctxOf (exec (.div .a .al 2 0 1) (aloneWith [(0, 0x800000000), (1, BitVec.allOnes 36)]))).map
    (fun x => (x.x[(2 : Reg)], x.v)) = some (0x800000000, true) := by decide

/-- A divisor of zero raises DIV_ZERO, 0x0B (R214). -/
theorem test_div_zero : faultOf (exec (.divu .a .al 2 0 1) alone) = some 0x0B := by decide

/-- A shift by the whole width leaves 0 with the last bit out in C, one by more leaves C 0 (R217). -/
theorem test_shift_width :
    (ctxOf (exec (.lsl .a .al 2 0 (.imm 36)) (aloneWith [(0, 1)]))).map (fun x => (x.x[(2 : Reg)], x.c)) = some (0, true) ∧
    (ctxOf (exec (.lsl .a .al 2 0 (.imm 37)) (aloneWith [(0, 1)]))).map (fun x => (x.x[(2 : Reg)], x.c)) = some (0, false) := by decide

/-- ADD72 carries from the low register of a pair into the high one (R210, R215). -/
theorem test_add72_carry : (ctxOf (exec (.add72 .a .al 4 0 2) (aloneWith [(0, BitVec.allOnes 36), (2, 1)]))).map
    (fun x => (x.x[(4 : Reg)], x.x[(5 : Reg)])) = some (0, 1) := by decide

/-- MOVI extends the sign of its 22 bits (R214). -/
theorem test_movi_sign : regOf (exec (.movi .a .al 3 0x3FFFFF) alone) 3 = some (BitVec.allOnes 36) := by decide

/-- SET of bit 35 of scratch word 2 writes the word; LD reads it back (R192, R195). -/
theorem test_set_bit : (match exec (.set .a .al 1 2 35) alone with
    | .next u => some (memGet u.laneA.mem 0x102, (ctxOf (exec (.ld .a .al 1 2 35) u)).map (·.rlr)) | _ => none) =
    some (0x800000000, some true) := by decide +kernel

/-- POP of an empty stack raises STACK_UNDER, 0x0A (R196). -/
theorem test_pop_empty : faultOf (exec (.pop .a .al) alone) = some 0x0A := by decide

/-- A word at the LIMIT of its segment raises SEG_LIMIT, 0x05 (R191). -/
theorem test_limit : faultOf (exec (.ldw .a .al 0 1 (.disp 64)) alone) = some 0x05 ∧
    (ctxOf (exec (.ldw .a .al 0 1 (.disp 63)) alone)).map (·.pc) = some 5 := by decide

/-- A double word at an odd address raises ALIGN, 0x07 (R212). -/
theorem test_align : faultOf (exec (.ldd .a .al 0 1 (.disp 1)) alone) = some 0x07 := by decide

/-- A condition that is false only advances PC (R188). -/
theorem test_condition_false : (ctxOf (exec (.movi .a .eq 3 1) alone)).map (fun x => (x.x[(3 : Reg)], x.pc)) = some (0, 5) := by decide

/-- A branch to the middle of another block raises BLOCK_ENTRY, to its start it goes on there, cleared (R152, R153). -/
theorem test_branch : faultOf (exec (.b .a .al 17) alone) = some 0x02 ∧
    (ctxOf (exec (.b .a .al 16) (aloneWith [(1, 5), (13, 6)]))).map (fun x => (x.pc, x.x[(1 : Reg)], x.x[(13 : Reg)])) = some (16, 0, 6) := by
  decide

/-- CALL links the next instruction in X14 (R229). -/
theorem test_call : (ctxOf (exec (.call .a .al 32) alone)).map (fun x => (x.pc, x.x[(14 : Reg)])) = some (32, 5) := by decide

/-- A block fill of one element stores X1, moves X0 and counts X2 down (R218, R219). -/
theorem test_bfill : (match exec (.bfill .a .al 1 false) (aloneWith [(0, 3), (1, 9), (2, 1)]) with
    | .next u => some (memGet u.laneA.mem 0x103, u.laneA.ctx.x[(0 : Reg)], u.laneA.ctx.x[(2 : Reg)], u.laneA.ctx.pc) | _ => none) =
    some (9, 4, 0, 5) := by decide +kernel

/-- LCTL word 1 is the cycle number; a word outside the list raises LCTL_INDEX, 0x0F (R232, R233). -/
theorem test_lctl : regOf (exec (.lctlRead .a .al false 3 1) alone) 3 = some 7 ∧
    faultOf (exec (.lctlRead .a .al false 3 5) alone) = some 0x0F := by decide

/-- HFFLAG ORs its bits; SVC queues its request (R235, R236). -/
theorem test_outside : (match exec (.hfFlag .a .al 3) (aloneWith [(3, 0x8001)]) with | .next u => some (u.task 0).hfFlag | _ => none) =
      some 0x8001 ∧
    (match exec (.svc .a .al 0x1234) alone with | .next u => u.hf.svcq.map (·.code) | _ => []) = [0x1234] := by decide +kernel

/-- Lane statements over registers alone: LaneAddSubtract, LaneLogic, LaneMove, LaneMultiplyMinMax, LanePairArithmetic, LaneShift,
LaneControlReads. -/
theorem witness_lane_registers : Runs alone .a .al 0 cyc ∧ taskRec alone 0 = some task0 := ⟨alone_runs, by decide⟩

theorem witness_LaneDivide : (∃ s : State, Runs s .a .al 0 cyc ∧ (s.ctx .a).x[(1 : Reg)] ≠ 0) ∧
    (∃ s : State, Runs s .a .al 0 cyc ∧ (s.ctx .a).x[(1 : Reg)] = 0) :=
  ⟨⟨aloneWith [(1, 1)], ⟨⟨by decide, by decide, by decide⟩, by decide, by decide⟩, by decide⟩, ⟨alone, alone_runs, by decide⟩⟩

/-- The scratch segment. -/
def scratch : SegRec := ⟨3, 7, 0xB, 0, 0x100, 64, 1⟩

/-- A bit access passes at bit 35 of the last word of the segment, with the bit stack empty and full. -/
theorem witness_LaneBits :
    (checkAccess alone .a (alone.ctx .a).sel[(1 : Sel)] 63 true false false 1 = .ok (0x13F, scratch) ∧
      ∃ w s1, readAt alone .a 0 scratch 0x13F = .ok (w, s1) ∧ (s1.ctx .a).stack.length < 8) ∧
    (∃ s : State, Runs s .a .al 0 cyc ∧ (s.ctx .a).stack.length = 8 ∧
      checkAccess s .a (s.ctx .a).sel[(1 : Sel)] 63 true false false 1 = .ok (0x13F, scratch) ∧
      ∃ w s1, readAt s .a 0 scratch 0x13F = .ok (w, s1) ∧ 8 ≤ (s1.ctx .a).stack.length) ∧
    (∃ s : State, Runs s .a .al 0 cyc ∧ (s.ctx .a).stack = [true]) ∧ (alone.ctx .a).stack = [] :=
  ⟨⟨rfl, _, _, rfl, by decide⟩,
    ⟨atWork true cyc { regs with stack := List.replicate 8 true }, ⟨⟨by decide, by decide, by decide⟩, by decide, by decide⟩, by decide,
      rfl, _, _, rfl, by decide⟩,
    ⟨atWork true cyc { regs with stack := [true] }, ⟨⟨by decide, by decide, by decide⟩, by decide, by decide⟩, by decide⟩, by decide⟩

theorem witness_LaneBitWrite : checkAccess alone .a (alone.ctx .a).sel[(1 : Sel)] 0 true true false 1 = .ok (0x100, scratch) ∧
    ∃ w s1 s2, readAt alone .a 0 scratch 0x100 = .ok (w, s1) ∧ writeAt s1 .a 0 scratch 0x100 (putBit w 35 true) = .ok ((), s2) :=
  ⟨rfl, _, _, _, rfl, rfl⟩

theorem witness_LaneWords :
    (∃ w s1, checkAccess alone .a (alone.ctx .a).sel[(1 : Sel)] 63 true false false 1 = .ok (0x13F, scratch) ∧
      readAt alone .a 0 scratch 0x13F = .ok (w, s1)) ∧
    (∃ s1, checkAccess alone .a (alone.ctx .a).sel[(1 : Sel)] 63 false true false 1 = .ok (0x13F, scratch) ∧
      writeAt alone .a 0 scratch 0x13F 0 = .ok ((), s1)) ∧
    (∃ lo hi s1 s2, checkAccess alone .a (alone.ctx .a).sel[(1 : Sel)] 62 true false true 2 = .ok (0x13E, scratch) ∧
      readAt alone .a 0 scratch 0x13E = .ok (lo, s1) ∧ readAt s1 .a 0 scratch 0x13F = .ok (hi, s2)) ∧
    (∃ s1 s2, checkAccess alone .a (alone.ctx .a).sel[(1 : Sel)] 62 false true true 2 = .ok (0x13E, scratch) ∧
      writeAt alone .a 0 scratch 0x13E 0 = .ok ((), s1) ∧ writeAt s1 .a 0 scratch 0x13F 0 = .ok ((), s2)) :=
  ⟨⟨_, _, rfl, rfl⟩, ⟨_, rfl, rfl⟩, ⟨_, _, _, _, rfl, rfl, rfl⟩, ⟨_, _, rfl, rfl, rfl⟩⟩

/-- Each answer of an access check: no segment, beyond the limit, no right, odd, damaged, and none of these. -/
theorem witness_LaneAccessChecks :
    descOf alone .a 0 = none ∧ descOf alone .a 0x101 = some (1, scratch) ∧ descOf alone .a 0x100 = some (0, ⟨3, 5, 4, 0xFF, 0x200000, 64, 0⟩) ∧
    1 ∉ alone.laneA.descPar ∧ scratch.limit < 63 + 2 ∧ scratch.allows true true = true ∧
    (⟨3, 5, 4, 0xFF, 0x200000, 64, 0⟩ : SegRec).allows true false = false ∧ (scratch.base + 1) % 2 = 1 ∧
    ({ alone.laneA with bad := [0x100] }).wordBad 0x101 = true := by decide

theorem witness_LaneReadWriteFrame : alone.cycle .a 0 = some cyc ∧ scratch.tracked = true ∧
    (∃ w s1, readAt alone .a 0 scratch 0x100 = .ok (w, s1)) ∧ (∃ s1, writeAt alone .a 0 scratch 0x100 5 = .ok ((), s1)) ∧
    Memory.wf alone.laneA.mem = true ∧ cyc.pass ≠ .replay ∧ alone.laneA.journal.length < journalSize :=
  ⟨by decide, by decide, ⟨_, _, rfl⟩, ⟨_, rfl⟩, by decide, by decide, by decide⟩

/-- One element left, and none: both sides of LaneBlockMove. -/
theorem witness_LaneBlockMove : (alone.ctx .a).x[(2 : Reg)] = 0 ∧ ∃ s : State, Runs s .a .al 0 cyc ∧ (s.ctx .a).x[(2 : Reg)] = 1 ∧
    checkAccess s .a (s.ctx .a).sel[(1 : Sel)] 0 true false false 1 = .ok (0x100, scratch) ∧
    checkAccess s .a (s.ctx .a).sel[(1 : Sel)] 0 false true false 1 = .ok (0x100, scratch) ∧
    ∃ v s1 s2, readAt s .a 0 scratch 0x100 = .ok (v, s1) ∧ writeAt s1 .a 0 scratch 0x100 v = .ok ((), s2) :=
  ⟨by decide, aloneWith [(2, 1)], ⟨⟨by decide, by decide, by decide⟩, by decide, by decide⟩, by decide, rfl, rfl, _, _, _,
    rfl, rfl⟩

/-- A record of zeros at word 0 of the scratch segment: a timer that has never run, a counter at 0. -/
theorem witness_records : checkRecord alone .a 1 0 = .ok (0x100, scratch) ∧
    ∃ s1, readWords alone .a 0 scratch 0x100 4 = .ok ([0, 0, 0, 0], s1) ∧
      (∃ s2, writeWords s1 .a 0 scratch 0x100 [1, 0, 2] = .ok ((), s2)) :=
  ⟨rfl, _, rfl, _, rfl⟩

/-- The states of a timer that the clauses of LaneTimers speak of, at PT = 0 and above it. -/
theorem witness_LaneTimers : tonStep ⟨5, false, false, false, false⟩ true 9 0 = (⟨9, true, false, false, false⟩, 0) ∧
    (tonStep ⟨5, false, true, false, false⟩ true 9 4).1.q = true ∧ (tonStep ⟨5, false, true, false, false⟩ true 9 5).1.q = false ∧
    (tofStep ⟨5, true, true, false, false⟩ false 9 4).1.q = false ∧ (tpStep ⟨5, false, false, false, false⟩ true 9 3).1.q = true := by
  decide

/-- A word of the record below 2, and a state in which the four operations of CNT72 have an operand. -/
theorem witness_LaneCounters : checkRecord alone .a 1 0 = .ok (0x100, scratch) ∧
    ∃ s0 s1, readWords alone .a 0 scratch 0x100 3 = .ok ([0, 0, 0], s0) ∧ peekWord s0 .a 0 cyc scratch (0x100 + 3) = .ok (0, s1) ∧
      ∃ s2, writeWords s1 .a 0 scratch 0x100 [0, 0, 0] = .ok ((), s2) := ⟨rfl, _, _, rfl, rfl, _, rfl⟩

/-- Targets at and above LENGTH, at and beside a block's start, and register targets with bit 20 set. -/
theorem witness_LaneTransfers :
    progLength alone .a = 64 ∧ isBlockStart alone.laneA.blocks 32 = true ∧ isBlockStart alone.laneA.blocks 33 = false ∧
    blockIdx alone.laneA.blocks 33 ≠ blockIdx alone.laneA.blocks 4 ∧
    unmarkedFence alone.laneA cyc { target := some 64 } = false ∧ unmarkedFence alone.laneA cyc { target := some 65 } = false ∧
    (∃ s : State, Runs s .a .al 0 cyc ∧ (s.ctx .a).x[(3 : Reg)] = BitVec.ofNat 36 64 ∧ (s.ctx .a).x[(14 : Reg)] = 32) ∧
    (∃ s : State, Runs s .a .al 0 cyc ∧ 2 ^ 20 ≤ (s.ctx .a).x[(3 : Reg)].toNat ∧ 2 ^ 20 ≤ (s.ctx .a).x[(14 : Reg)].toNat) :=
  ⟨by decide, by decide, by decide, by decide, by decide, by decide,
    ⟨aloneWith [(3, 64), (14, 32)], ⟨⟨by decide, by decide, by decide⟩, by decide, by decide⟩, by decide, by decide⟩,
    ⟨aloneWith [(3, 0x100000), (14, 0x100000)], ⟨⟨by decide, by decide, by decide⟩, by decide, by decide⟩, by decide, by decide⟩⟩

/-- A condition that does not hold, an encoding error, an illegal word, and a lane that may not retire. -/
theorem witness_LaneGates :
    (laneForm (.add .a .eq 0 1 2) = some (.a, .eq, {}) ∧ Ready alone .a 0 cyc ∧ unmarkedFence alone.laneA cyc {} = false ∧
      condHolds .eq (alone.ctx .a) cyc.fc cyc.fw = false ∧ oneSided alone .a false = none) ∧
    laneForm (.ld .a .al 1 0 36) = some (.a, .al, { illegal := true }) ∧ laneWordIllegal 0 = true ∧
    laneForm (.nop .a .al) = some (.a, .al, {}) ∧ missedCommit (running true) .a = none ∧ mayRetire (running true) .a = none ∧
    laneWordIllegal 0x008801003 = false ∧ condOfCode (3 : BitVec 4).toNat = some .eq ∧ (35 : BitVec 6).toNat < 36 :=
  ⟨⟨rfl, alone_runs.1, by decide, by decide, by decide⟩, rfl, by decide, rfl, by decide, by decide, by decide, by decide, by decide⟩

theorem witness_LaneRetires : alone.cycle .a 0 = some cyc ∧ WithinBlock alone .a cyc 5 ∧ WithinBlock alone .a cyc 15 ∧
    WithinBlock alone .a cyc 4 ∧ cyc.pass = .full ∧ cyc.replayLimit = 0 ∧ isPaired alone = false ∧ alone.laneA.readSet = [] ∧
    alone.laneA.vein.length ≤ veinSize ∧ 64 ≤ progLength alone .a := by
  refine ⟨by decide, ?_, ?_, ?_, by decide⟩ <;>
    exact ⟨by decide, by decide, .inr (.inr (by decide)), .inl (by decide)⟩

theorem witness_LaneException : (alone.cycle .a 0 = some cyc ∧ isSplit alone = true ∧ taskLane alone 0 = .a ∧ alone.seq.fltValid = false) ∧
    ({ alone with seq := { alone.seq with fltValid := true } }).cycle .a 0 = some cyc ∧
    (isPaired (atWork false cyc regs) = true ∧ (atWork false cyc regs).cycle .a 0 = some cyc) := by decide

/-- A descriptor in the scratch segment: one element from message RAM to scratch word 16. -/
def withDescriptor : State :=
  let s := aloneWith [(0, 0x40000)]
  { s with laneA := { s.laneA with mem := memWriteSeq [] 0x100 [0x200000, 0x40010, 1, 0] } }

theorem witness_LaneOutside : isSplit alone = true ∧ alone.asy.unpaired = false ∧ RunsFence alone .a .al 0 cyc true ∧
    RunsFence alone .a .al 0 cyc false ∧
    (RunsFence withDescriptor .a .al 0 cyc true ∧ ∃ s1, readDescriptor withDescriptor .a 0 1 0 4 = .ok ([0x200000, 0x40010, 1, 0], s1)) ∧
    (taskDescriptor [0x200000, 0x40010, 1, 0]).valid = true ∧ alone.tly.task[(0 : Task)].checkIns = 0 ∧ tallyTokens alone 0 = [] ∧
    alone.hf.svcq.length < 64 ∧ egressRec alone 1 = some ⟨1, 0, 0, 0, 0, 1, 0⟩ ∧ egressRec alone 2 = some ⟨2, 0, 0, 0, 0, 1, 1⟩ :=
  ⟨by decide, by decide, alone_runs_fence true, alone_runs_fence false,
    ⟨⟨⟨by decide, by decide, by decide⟩, by decide, by decide, by decide⟩, _, rfl⟩, by decide, by decide, by decide, by decide, by decide,
    by decide⟩

/-- TWAIT while the transfer runs. -/
theorem witness_LaneOutside_busy : RunsFence (atWork true { cyc with tramBusy := true } regs) .a .al 0 { cyc with tramBusy := true } false :=
  ⟨⟨by decide, by decide, by decide⟩, by decide, by decide, by decide⟩

/-- Paired: Lane A ahead by more than the offset, with an outside effect handed over at Lane B's count. -/
def paired (eff : List PendEffect) : State :=
  let s := atWork false cyc regs
  { s with laneA := { s.laneA with count := 100 }, asy := { s.asy with effects := eff } }

theorem witness_LanePairedEffect : isPaired (paired []) = true ∧ RunsFence (paired []) .a .al 0 cyc true ∧
    (RunsFence (paired [⟨0, 7, 1, .hfFlag 0⟩]) .b .al 0 cyc true ∧ checkpointPending (paired [⟨0, 7, 1, .hfFlag 0⟩]) = false ∧
      (paired [⟨0, 7, 1, .hfFlag 0⟩]).laneB.count + 1 = 1 ∧ Effect.hfFlag ((paired []).ctx .b).x[(3 : Reg)] = .hfFlag 0) ∧
    RunsFence (paired [⟨0, 7, 1, .hfFlag 5⟩]) .b .al 0 cyc true :=
  ⟨by decide, ⟨⟨by decide, by decide, by decide⟩, by decide, by decide, by decide⟩,
    ⟨⟨⟨by decide, by decide, by decide⟩, by decide, by decide, by decide⟩, by decide, by decide, by decide⟩,
    ⟨⟨by decide, by decide, by decide⟩, by decide, by decide, by decide⟩⟩

/-- In paired mode the effect of Lane A is handed over and not yet performed (R230). -/
theorem test_effect_waits : (match exec (.hfFlag .a .al 3) (paired []) with | .next u => some (u.asy.effects.length, (u.task 0).hfFlag) | _ => none) =
    some (1, 0) := by decide

/-! ### The Headframe -/

/-- The Headframe with registers, in vendor code or in the partition. -/
def hfAt (p : Bool) (w : List (Reg × W16)) : State :=
  let s := running true
  { s with hf := { s.hf with
    w := w.foldl (fun v q => v.set q.1 q.2) s.hf.w, p := p, pc := if p then 0x6100 else 0x100, dead := false, waiting := false, level := 32
    intPart := true } }

def hfOf (o : Out) : Option HfState := match o with | .next u => some u.hf | _ => none

theorem hf_runs (p : Bool) : HfRuns (hfAt p []) .al := by cases p <;> exact ⟨by decide, by decide⟩

/-- ADD of 0xFFFF and 1 (R213, R362). -/
theorem test_hf_add : (hfOf (exec (.hfAdd .al 2 0 1) (hfAt false [(0, 0xFFFF), (1, 1)]))).map
    (fun h => (h.w[(2 : Reg)], h.z, h.c, h.v, h.pc)) = some (0, true, true, false, 0x101) := by decide

/-- A zero divisor writes 0xFFFF and sets V (R362). -/
theorem test_hf_div_zero : (hfOf (exec (.hfDivu .al 2 0 1) (hfAt false [(0, 5)]))).map (fun h => (h.w[(2 : Reg)], h.v)) =
    some (0xFFFF, true) := by decide

/-- A word of local RAM stored and loaded (R361). -/
theorem test_hf_ram : (match exec (.hfSt .al 3 0 5) (hfAt false [(0, 0x100), (3, 0xBEEF)]) with
    | .next u => (hfOf (exec (.hfLd .al 4 0 5) u)).map (fun h => h.w[(4 : Reg)]) | _ => none) = some 0xBEEF := by decide +kernel

/-- The partition may not reach vendor RAM: PERM, vector 3, entered with P = 0 (R364, R366, R368). -/
theorem test_hf_perm : (hfOf (exec (.hfLd .al 4 0 0) (hfAt true [(0, 0x3FFF)]))).map (fun h => (h.pc, h.p, h.level, h.intStop)) =
    some (6, false, 3, true) := by decide +kernel

/-- IN above the blocks reads 0 (R11). -/
theorem test_hf_in : (hfOf (exec (.hfIn .al 4 0 0) (hfAt false [(0, 0x3400), (4, 9)]))).map (fun h => h.w[(4 : Reg)]) = some 0 := by decide +kernel

/-- A call gate lets the partition into vendor code (R364). -/
theorem test_hf_gate : (hfOf (exec (.hfCall .al 0x5F00) (hfAt true []))).map (fun h => (h.pc, h.p, h.w[(14 : Reg)])) =
    some (0x5F00, false, 0x6101) := by decide +kernel

/-- Statements over Headframe registers: HeadframeArithmetic, HeadframeLogic, HeadframeShiftDivide; and EI, DI in both modes. -/
theorem witness_headframe : HfRuns (hfAt false []) .al ∧ HfRuns (hfAt true []) .al ∧ (hfAt false []).hf.w[(1 : Reg)] = 0 ∧
    (hfAt false [(1, 1)]).hf.w[(1 : Reg)] ≠ 0 ∧ (hfAt false []).hf.p = false ∧ (hfAt true []).hf.p = true :=
  ⟨hf_runs false, hf_runs true, by decide, by decide, by decide, by decide⟩

/-- Addresses at the ends of each space of HeadframeMemoryAndPorts. -/
theorem witness_HeadframeMemoryAndPorts :
    (((hfAt true [(0, 0x4000)]).hf.w[(0 : Reg)] + (0 : BitVec 14).signExtend 16).toNat = 0x4000) ∧
    (((hfAt true [(0, 0x3FFF)]).hf.w[(0 : Reg)] + (0 : BitVec 14).signExtend 16).toNat < 0x4000) ∧
    (0xC000 ≤ ((hfAt false [(0, 0xC000)]).hf.w[(0 : Reg)] + (0 : BitVec 14).signExtend 16).toNat) ∧
    inEditQueue ((hfAt false []).hf.bank.toNat * 16384) = false ∧ mailboxWord 0x14000 = none ∧ inEditQueue 0x14000 = false ∧
    (∃ n, inEditQueue n = true ∧ n < 131072) ∧
    portPermitted (hfAt false []) 0x3202 true = true ∧ portPermitted (hfAt true []) 0x0E00 true = false ∧
    portPermitted (hfAt true []) 0x0000 false = false ∧ isExpert 0x2601 = false := by
  refine ⟨by decide, by decide, by decide, by decide, by decide, by decide, ⟨editBase, by decide⟩, by decide, by decide, by decide, by decide⟩

theorem witness_HeadframeTransfers : (∃ f rest, ({ hfAt false [] with hf := { (hfAt false []).hf with
      frames := [⟨0x200, false, false, false, false, false, true, 32, 0⟩] } }).hf.frames = f :: rest) ∧
    (hfAt false [(3, 0x8000)]).hf.w[(3 : Reg)].getLsbD 15 = true ∧ (hfAt false [(3, 0x5F3F)]).hf.w[(3 : Reg)].toNat = (0x5F3F : BitVec 15).toNat :=
  ⟨⟨_, _, rfl⟩, by decide, by decide⟩

theorem witness_HeadframeSystemForms : hfForm (.hfAdd .eq 0 1 2) = some .eq ∧ hfFetches (hfAt false []) = true ∧
    hcondHolds (hfAt false []) .eq = false ∧ ({ (hfAt false []).hf with dead := true }).dead = true ∧
    (hfAt false []).hf.stepOne = false := ⟨rfl, by decide, by decide, rfl, by decide⟩

theorem witness_HeadframeEntries : 1 < (hfAt false []).hf.level ∧ 3 < (hfAt false []).hf.level ∧
    ({ (hfAt false []).hf with level := 1 }).level ≤ 1 ∧ (hfAt false []).hf.faultValid = false ∧ hfWordIllegal 0 = true ∧
    (∃ s : State, s.hf.dead = false ∧ s.hf.halted = false ∧ s.wdt.held = false ∧ s.clk.lock = true ∧ vectorEligible s 26 = true ∧
      ∀ w, w < 26 → vectorEligible s w = false) := by
  refine ⟨by decide, by decide, by decide, by decide, by decide, ?_⟩
  let s := hfAt false []
  exact ⟨{ s with hf := { s.hf with ie := true, swi := 1, ien := 1#32 <<< 26, imask := 0 } }, by decide +kernel⟩

theorem witness_HeadframeService : ∃ s : State, ∀ code : W16, ∃ q,
    ({ s with hf := { s.hf with svcq := [⟨code, false, false, 0, 0, 7, [0x1000, 0, 0, 0]⟩] } }).hf.svcq = [q] ∧ q.code = code ∧
      (q.task, q.cycle, q.ord) ∉ s.hf.served ∧ 0x1000 ≤ (q.x.getD 0 0).toNat % 65536 ∧ s.hf.intPart = true ∧ s.hf.intStop = false :=
  ⟨hfAt false [], fun _ => ⟨_, rfl, rfl, List.not_mem_nil, (by decide : 0x1000 ≤ (0x1000 : W36).toNat % 65536), by decide, by decide⟩⟩


/-! ### Resets, starts, clocks: states that meet the hypotheses -/

/-- A part in the running state, in split mode, that has its own charter checks in order. -/
def base : State := running true

def withSys (f : SysState → SysState) : State := { base with sys := f base.sys }

/-- A reset of warm class has been entered, and has been rolled back. -/
def entered : State := withSys (fun y => { y with phase := .entered, state := .starting, cause := 5, coldClass := false, retOk := true })

def rolledBack : State := withSys (fun y => { y with phase := .rolledBack, state := .starting, cause := 5, coldClass := false, retOk := true })

theorem witness_ResetToRelease : resetUnderWay base = false ∧ base.sys.state = .running ∧ State.reset.sys.state ≠ .running ∧
    resetUnderWay State.reset = false ∧ resetUnderWay entered = true ∧
    (entered.sys.phase = .entered ∧ entered.pil.store = .none ∧ entered.sys.coldClass = false ∧ rollbackBad entered .a = false ∧
      rollbackBad entered .b = false) ∧
    (rolledBack.sys.phase = .rolledBack ∧ rolledBack.pil.store = .none ∧ rolledBack.sup.core = true ∧ rolledBack.sup.lin = true ∧
      rolledBack.sup.hold = true ∧ rolledBack.xsp.dirq = []) ∧
    (withSys (fun y => { y with phase := .entered, coldClass := true })).sys.coldClass = true ∧
    ({ rolledBack with sup := { rolledBack.sup with hold := false } }).sup.hold = false := by decide

/-- The two kinds of release: warm needs every check of the retention, which a charter latch without error and retained data give. -/
theorem witness_release_kinds : (rolledBack.sys.coldAsked = false ∧ 4 ≤ rolledBack.sys.cause) ∧
    retentionWhy { rolledBack with cht := { rolledBack.cht with latchOk := true } } = 0 ∧
    retentionWhy (withSys (fun y => { y with coldClass := true })) = 1 := by decide +kernel

/-- The reset pin: 199 ns do nothing, 1,000 ns reset with cause 2 (R87). -/
theorem test_reset_pin : (match exec (.externalReset 199) base with | .next u => some u.sys.phase | _ => none) = some .idle ∧
    (match exec (.externalReset 1000) base with | .next u => some (u.sys.cause, u.sys.phase, u.sys.coldClass) | _ => none) =
      some (2, .entered, true) := by decide +kernel

def judging (step good : Nat) : State :=
  { base with sys := { base.sys with phase := .judging step, state := .starting, startWdt := true }, clk := { base.clk with good := good } }

def lockingTo (step ref : Nat) : State :=
  { base with sys := { base.sys with phase := .locking step, state := .starting }, clk := { base.clk with newRef := ref } }

theorem witness_StartSteps :
    (fuseWdtOpen State.reset ≠ 7 ∧ fuseStartRef State.reset < 2 ∧ State.reset.sys.phase = .released false ∧ State.reset.sys.warm = false) ∧
    (∃ s : State, s.sys.phase = .released true ∧ s.sys.warm = true ∧ s.cht.charter = some (charter true) ∧ (charter true).head.ref < 2 ∧
      s.fuses = State.reset.fuses ∧ fuseWdtOpen s ≠ 7 ∧ fuseStartRef s ≠ 3) ∧
    ((judging 2 3).sys.phase = .judging 2 ∧ (judging 2 3).clk.good = 3 ∧ (judging 7 0).clk.good < 3 ∧
      1024 * (100 - 7) ≤ 100 * 953 ∧ ¬ 1024 * (100 - 7) ≤ 100 * 952 ∧ 100 * 1095 ≤ 1024 * (100 + 7) ∧ ¬ 100 * 1096 ≤ 1024 * (100 + 7)) ∧
    ((lockingTo 2 0).sys.phase = .locking 2 ∧ (lockingTo 2 0).seam.held = [] ∧ stepDivs (lockingTo 2 0) 2 ≠ (lockingTo 2 0).clk.cur) ∧
    (base.sys.phase = .idle ∧ base.clk.lock = true ∧ isLaneIsland 2 = false ∧ State.reset.clk.lock = false) ∧
    ((judging 2 0).sys.startWdt = true ∧ ({ base.sys with startWdt := false }).startWdt = false) := by
  refine ⟨by decide, ⟨withSys (fun y => { y with phase := .released true, warm := true }), by decide⟩, by decide, by decide, by decide, by decide⟩

set_option maxRecDepth 60000 in
/-- The fuses of a part whose production has ended agree with their integrity values (R543, R574); one more bit does not. -/
theorem witness_StartSteps_fuses : fusesAgree State.reset.fuses = true ∧
    fusesAgree { State.reset.fuses with word := State.reset.fuses.word.set 3 1 } = false := by decide +kernel

/-- 953 edges in a window lie inside W = 7, 952 outside (R449). -/
theorem test_judging_window :
    (match exec (.judgingWindow 953) (judging 2 0) with | .next u => some u.clk.good | _ => none) = some 1 ∧
    (match exec (.judgingWindow 952) (judging 2 2) with | .next u => some u.clk.good | _ => none) = some 0 := by decide +kernel

/-- A ramp step moves an island by one toward its target, the two lanes together in paired mode (R454, R456). -/
theorem test_ramp_step : let t := fun (s : State) => { s with clk := { s.clk with target := Vector.replicate 10 20 } }
    (match exec (.rampStep 2) (t base) with | .next u => some (u.clk.cur[(2 : Island)], u.clk.cur[(3 : Island)]) | _ => none) = some (31, 32) ∧
    (match exec (.rampStep 0) (t base) with | .next u => some (u.clk.cur[(0 : Island)], u.clk.cur[(1 : Island)]) | _ => none) =
      some (17, 16) ∧
    (match exec (.rampStep 0) (t (running false)) with | .next u => some (u.clk.cur[(0 : Island)], u.clk.cur[(1 : Island)]) | _ => none) =
      some (17, 17) := by decide +kernel

/-- A seam whose fact stands: MB0 runs with a mailbox done and its interrupt enabled, vector 15. -/
def seamAt (q : PSeam) : State :=
  { base with
    mb := base.mb.set 0 { base.mb[(0 : Bus)] with txDone := 1, ien := 1, phase := .active }
    seam := { base.seam with pulse := base.seam.pulse.set 5 q } }

/-- The expert map open: every bit of the grants, and a firmware write; an island whose gate may close, and one whose may not. -/
theorem witness_ClocksAndSeams :
    (expertGranted base 0x312 = true ∧ divRefused base 2 4 = false ∧ divRefused base 2 3 = true) ∧
    (islandHasWork base 3 = false ∧ base.clk.gateDis.getLsbD 3 = false ∧ islandHasWork base 2 = true) ∧
    (∃ s : State, s.sys.state = .running ∧ s.clk.ref ≠ 2 ∧ s.clk.badRun = 3 ∧ goodWindow s.clk.judgeWin 953 = true ∧
      goodWindow s.clk.judgeWin 952 = false) ∧
    isExpert 0x0200 = false ∧ isExpert 0x310 = true ∧ 0x310 / 0x200 ≠ 21 ∧ portPermitted base 0x200 true = false ∧
    (seamOpen base 3 = false ∧ seamOpen (seamAt ⟨true, false, false, 0⟩) 5 = true ∧ seamOpen (seamAt ⟨true, false, false, 0⟩) 8 = true) ∧
    (hostServes base = true ∧ base.clk.lock = true ∧ 0x9F#8 ∉ [0xEE#8, 0x12#8, 0x05#8]) := by
  refine ⟨by decide, by decide, ⟨{ base with clk := { base.clk with ref := 0, badRun := 3 } }, by decide⟩, ?_⟩
  and_intros <;> decide

/-- An expert half without its grant (R14). -/
theorem witness_ClocksAndSeams_denied : ∃ s : State, expertGranted s 0x310 = false :=
  ⟨{ base with cht := { base.cht with charter := none } }, by decide⟩

/-- A third event on a pulse seam whose round trip has not returned is lost (R467); without its fact nothing enters (R468). -/
theorem test_pulse_seam : (match exec (.pulseSeamEvent 5 0) (seamAt ⟨true, true, false, 255⟩) with
    | .next u => some (u.seam.pulse[(5 : Fin 16)]) | _ => none) = some ⟨true, true, true, 255⟩ ∧
    (match exec (.pulseSeamEvent 5 0) base with | .next u => some (u.seam.pulse[(5 : Fin 16)]) | _ => none) =
      some ⟨false, false, false, 0⟩ := by decide +kernel

theorem witness_PulseSeams : seamFact (seamAt ⟨true, true, true, 255⟩) 5 = true ∧
    (seamAt ⟨false, false, false, 0⟩).seam.pulse[(5 : Fin 16)] = ⟨false, false, false, 0⟩ ∧
    (seamAt ⟨true, false, false, 0⟩).seam.pulse[(5 : Fin 16)] = ⟨true, false, false, 0⟩ ∧
    (seamAt ⟨true, true, true, 255⟩).seam.pulse[(5 : Fin 16)] = ⟨true, true, true, 255⟩ := by decide +kernel

/-- A seam whose fact does not stand, with the root running and held (R467, R468). -/
theorem witness_ClocksAndSeams_facts : seamFact base 5 = false ∧ seamFact (seamAt ⟨true, false, false, 0⟩) 5 = true ∧
    base.clk.lock = true ∧ State.reset.clk.lock = false ∧ (2 : Nat) ≤ (5 : Fin 16).val ∧ (1 : Fin 16).val < 2 := by decide +kernel

theorem witness_StepKeepsMemories : MemoriesCanonical { State.reset with pending := [.tick] } ∧
    ∃ u, step { State.reset with pending := [.tick] } = .next u :=
  ⟨⟨rfl, rfl, rfl, rfl, rfl, rfl, rfl, rfl, rfl, fun _ _ h => nomatch h⟩, _, rfl⟩

theorem witness_FusesAndQueueStand : ∃ u, exec .tick State.reset = .next u := ⟨_, rfl⟩

theorem witness_StepTakesFront : targetHolds .laneA 0x21FFFF = true ∧ targetHolds .laneA 0x220000 = false := by decide

/-! ### Tasks, commits, contexts, edits, replay, verdicts -/

/-- Task 0 in a phase, at the unit time given. -/
def taskIn (p : TPhase) (ut : W72) : State :=
  let s := (running true).modTask 0 (fun t => { t with phase := p, number := 7, sk := 100 })
  { s with seq := { s.seq with ut := ut } }

theorem witness_TaskTime : taskRec base 0 = some task0 ∧ base.seq.running = true ∧ swapCounts base = false ∧ base.pair.retake = none ∧
    base.wdt.armed = false ∧ (∀ r ∈ (base.lane (homeLane base 0)).journal, r.err = false) ∧ State.reset.seq.running = false ∧
    ((taskIn (.ready 200) 200).task 0).phase = .ready 200 ∧ roleRuns base.pair.role = true ∧ base.pair.demoting = false ∧
    (base.lane .a).stopped = false ∧ base.asy.rollback = none ∧
    ((atWork true { cyc with tkStamp := none } regs).cycle .a 0 = some { cyc with tkStamp := none } ∧ (alone.task 0).phase = .opened ∧
      cyc.tk ≤ alone.seq.ut) ∧
    ((taskIn .opened 1100).task 0).sk + BitVec.ofNat 72 task0.budget ≤ (taskIn .opened 1100).seq.ut ∧
    ((taskIn .opened 1099).seq.ut < ((taskIn .opened 1099).task 0).sk + BitVec.ofNat 72 task0.budget) ∧
    ((taskIn .opened 1100).task 0).consec + 1 ≤ task0.ovrLimit ∧ base.pair.role ≠ .faulted ∧ isSplit base = true ∧
    isPaired (running false) = true := by
  and_intros <;> decide

/-- The watchdog armed: it counts two ticks of the derived clock in a tick, or is stopped; an active part whose standby is mirrored. -/
theorem witness_TaskTime_counts : (∃ s : State, s.wdt.armed = true ∧ s.wdt.stopped = false ∧ s.pair.retake = none ∧ s.seq.running = true ∧
      swapCounts s = false) ∧ (∃ s : State, s.wdt.stopped = true) ∧
    ∃ s : State, swapCounts s = true ∧ s.seq.running = true ∧ s.wdt.armed = false ∧ s.pair.retake = none :=
  ⟨⟨{ base with wdt := { base.wdt with armed := true } }, by decide⟩, ⟨{ base with wdt := { base.wdt with stopped := true } }, rfl⟩,
    ⟨{ base with pair := { base.pair with present := true, prole := .standby, pmirror := 2 } }, by decide⟩⟩

/-- The third overrun in a row of a task with OVR_LIMIT 2 is one too many (R142). -/
theorem witness_TaskTime_limit : task0.ovrLimit < (((taskIn .opened 1100).modTask 0 (fun t => { t with consec := 2 })).task 0).consec + 1 := by
  decide

/-- An overrun: the warning and one more in a row; past the limit OVR_LIMIT, 0x23 (R141, R142). -/
theorem test_overrun : (match exec (.overrun 0) (taskIn .opened 1100) with
      | .next u => some ((u.task 0).ovrWarn, (u.task 0).consec) | _ => none) = some (true, 1) ∧
    (match exec (.overrun 0) ((taskIn .opened 1100).modTask 0 (fun t => { t with consec := 2 })) with
      | .next u => some ((u.task 0).phase, u.seq.fltCode) | _ => none) = some (.faulted, 0x23) := by decide +kernel

/-- A paired part whose Lane A waits at its COMMIT with everything done. -/
def atCommit : State :=
  let c := { cyc with hold := .progEnd }
  let x := { regs with pc := 0, atEnd := true }
  let s := atWork false c x
  { s with laneA := { s.laneA with count := 40 } }

theorem witness_CommitOfPair : isPaired atCommit = true ∧ atCommit.cycle .a 0 = some { cyc with hold := .progEnd } ∧
    (∀ r ∈ atCommit.laneA.journal ++ atCommit.laneB.journal, r.err = false) ∧
    (∀ v ∈ atCommit.laneA.vein ++ atCommit.laneA.readSet ++ atCommit.laneB.vein ++ atCommit.laneB.readSet, v.err = false) ∧
    commitReady atCommit 0 = true ∧ commitReady (atWork false cyc regs) 0 = false ∧ (∀ t, snapshotDue atCommit t = false) ∧
    (atCommit.task 0).overrun = false ∧ (atCommit.task 0).stopReq = false ∧ taskRec atCommit 0 = some task0 ∧
    atCommit.seq.editNext = false := by decide +kernel

/-- Lane B at its commit, with Lane A's commit pending at its count. -/
def pendCommit : Verdict where
  kind := .commit
  task := 0
  cycle := 7
  count := 40
  stamp := 3
  tkStamp := some 1
  sigA := 0
  sigB := none
  egA := []
  egB := []
  noRelease := false
  writes := []
  overrun := false
  stopped := false
  consec := 0
  close := 0
  sub := 0
  next := 0
  prevConsec := 0
  prevFb := 0
  sk := 100
  tk := 105
  replays := 0
  out := 0
  cyc := none
  fbRun := 0

def bAtCommit : State :=
  { atCommit with
    laneB := { atCommit.laneB with count := 40 }, asy := { atCommit.asy with pend := [pendCommit] }
    seq := { atCommit.seq with delivery := [(.commitDone 0, 40)] } }

theorem witness_CommitOfPair_b : ({ cyc with hold := .progEnd } : LCycle).atCommit = true ∧
    bAtCommit.cycle .b 0 = some { cyc with hold := .progEnd } ∧ bAtCommit.laneB.cur = some 0 ∧ cyc.saved = false ∧
    bAtCommit.laneB.stopped = false ∧ bAtCommit.asy.rollback = none ∧
    commitPending bAtCommit = false ∧ checkpointPending bAtCommit = false ∧ preemptDue bAtCommit .b = false ∧
    bAtCommit.seq.delivery = [(.commitDone 0, bAtCommit.laneB.count)] ∧ bAtCommit.asy.pend = [pendCommit] ∧ pendCommit.sigB = none ∧
    pendCommit.count = bAtCommit.laneB.count := by decide

/-- A lane with the context segment, its task to be pre-empted, and to be restored. -/
def preempted (saved : Bool) : State :=
  let s := atWork true { cyc with saved := saved } regs
  if saved then { s with laneA := { s.laneA with cur := none, mem := memWriteSeq [] 0x200 (saveArea regs 7 0) } }
  else { s with laneA := { s.laneA with stopped := false } }

theorem witness_ContextArea : (alone.cycle .a 0 = some cyc ∧ ctxSegment alone .a 0 = some (2, ⟨3, 8, 0, 0, 0x200, 24, 2⟩) ∧
      (alone.lane .a).stopped = false ∧ alone.asy.rollback = none ∧
      (List.range 24).any (fun j => (alone.lane .a).wordBad (0x200 + j)) = false ∧ (alone.lane .a).cur = some 0 ∧
      (alone.lane .a).halted = false ∧ cyc.hold ≠ .waitFull ∧ 2 ∉ (alone.lane .a).descPar) ∧
    ((preempted true).lane .a).cur = none ∧ ((preempted true).lane .a).pick = some 0 ∧
    (preempted true).cycle .a 0 = some { cyc with saved := true } ∧
    contextValid (preempted true) .a 0 { cyc with saved := true } (List.replicate 24 0) = false := by decide +kernel

set_option maxRecDepth 20000 in
/-- What a save wrote is valid for the restore. -/
theorem witness_ContextArea_valid :
    contextValid (preempted true) .a 0 { cyc with saved := true } (memWords (preempted true).laneA.mem 0x200 24) = true := by
  decide +kernel

/-- A cycle that waits at a fence for its snapshot instant. -/
def waiting : LCycle := { cyc with hold := .fence, tkStamp := none }

/-- Lane B of a pair whose task waits while another has work. -/
theorem witness_ContextArea_switch : ∃ s : State, s.cycle .b 0 = some waiting ∧ ctxSegment s .b 0 = some (2, ⟨3, 8, 0, 0, 0x200, 24, 2⟩) ∧
    (s.lane .b).stopped = false ∧ s.asy.rollback = none ∧ (List.range 24).any (fun j => (s.lane .b).wordBad (0x200 + j)) = false ∧
    (s.lane .b).cur = some 0 ∧ switchDue s .b = true ∧ (s.lane .b).halted = false ∧ waiting.hold ≠ .waitFull ∧
    2 ∉ (s.lane .b).descPar :=
  ⟨let s := atWork false waiting regs; { s with laneB := { s.laneB with cycles := s.laneB.cycles.set 1 (some cyc) } }, by decide +kernel⟩

/-- An edit queue with one entry for word 0x110 of Lane A. -/
def withEdit (delivery : List (DEvent × W48)) : State :=
  let s := running true
  { s with msg := memWriteSeq [] editBase ([0, 1, 1, 0, 0] ++ List.replicate 11 0 ++ [0x110, 0x40, 5]), seq := { s.seq with delivery := delivery } }

theorem witness_EditQueue : Memory.wf (withEdit []).msg = true ∧ (withEdit []).sys.state = .running ∧ (withEdit []).asy.rollback = none ∧
    editWord (withEdit []) 2 = 1 ∧ deliveryFull (withEdit []) = false ∧ commitBefore (withEdit []) = false ∧ commitBefore atCommit = true ∧
    (∀ t, snapshotDue (withEdit []) t = false) ∧
    editWord base 2 = 0 ∧ Memory.wf base.msg = true ∧ Memory.wf (base.lane .a).mem = true ∧ (base.lane .a).journal.length < 65536 ∧
    (∀ v ∈ (base.lane .a).vein ++ (base.lane .a).readSet, v.err = false) := by decide +kernel

/-- Delivery list full, edit not yet held (R279). -/
theorem witness_EditQueue_full : ∃ s : State, editWord s 2 ≠ 0 ∧ s.seq.editHeld = false ∧ twoLanes s = true ∧ s.seq.delivery.length = 8192 ∧
    commitBefore s = false := by
  refine ⟨{ running false with msg := (withEdit []).msg, seq := { (running false).seq with delivery := List.replicate 8192 (.preempt, 0) } },
    by decide +kernel, rfl, by decide, List.length_replicate, by decide +kernel⟩

/-- A cycle past its Tk with an instance, dirty or not, standing as given. -/
def stands (h : Hold) (p : Pass) (dirty : Bool) (err : Bool := false) : State :=
  let i : Inst := ⟨0, 0, 0, 0, 0, 0, 16, 5, dirty, [], err⟩
  atWork true { cyc with hold := h, pass := p, insts := [i], fwd := 16 } regs

theorem witness_ReplayAndFences :
    (((standing (stands .fence .first true) .a).map (fun p => (p.1, p.2.stopped, firstIdx (fun n : Inst => n.dirty) p.2.insts))) =
      some (0, true, some 0)) ∧
    (((standing (stands .fence .first true true) .a).map (fun p => (p.2.stopped, p.2.insts.map (fun i : Inst => (i.dirty, i.err))))) =
      some (true, [(true, true)])) ∧
    (((standing (stands .fence .first false) .a).map (fun p => (p.2.hold, p.2.anyDirty, p.2.pass))) = some (.fence, false, .first)) ∧
    (stands .fence .first false).laneA.instUse < 65536 ∧
    (((standing (stands (.provisional 0x0B 0 false) .first true) .a).map (fun p => (p.2.insts.take (p.2.insts.length - 1)).any (·.dirty))) =
      some false) ∧
    (((standing (stands .waitFull .full false) .a).map (fun p => p.2.hold)) = some .waitFull) ∧
    (∃ s : State, (s.lane .a).journal.any (retirable s .a) = true) ∧ (alone.lane .a).journal.any (retirable alone .a) = false := by
  refine ⟨by decide, by decide, by decide, by decide, by decide, by decide,
    ⟨{ base with laneA := { base.laneA with journal := [⟨0x110, 3, false, 0, 0, 0, some 1, false, 1⟩] } }, by decide⟩, by decide⟩

/-- Lane B of a pair at a provisional exception, with its gate closed and open. -/
theorem witness_ReplayAndFences_b : let s := fun (n : W48) =>
      let c : LCycle := { cyc with hold := .provisional 0x0B 0 false, pass := .first, insts := [⟨0, 0, 0, 0, 0, 0, 16, 5, false, [], false⟩] }
      let x := atWork false c regs
      { x with laneA := { x.laneA with count := n, cycles := x.laneA.cycles.set 0 (some { cyc with pass := .first }) } }
    (standing (s 0) .b).map (fun p => (p.1, p.2.hold)) = some (0, .provisional 0x0B 0 false) ∧ isSplit (s 0) = false ∧
      laneBGate (s 0) = false ∧ laneBGate (s 100) = true := by decide

/-- A commit with both signatures, equal or not. -/
def judged (sigB : Option (BitVec 128)) (rec_ : Bool) : State :=
  let s := atWork false cyc regs
  { s with asy := { s.asy with pend := [{ pendCommit with sigB := sigB }], recovery := rec_ } }

theorem witness_AssayVerdicts : (judged none false).asy.pend = [pendCommit] ∧ isPaired (judged none false) = true ∧
    (judged none false).asy.gate = true ∧ (judged none false).asy.rollback = none ∧ resetUnderWay (judged none false) = false ∧
    ({ pendCommit with sigB := some 0 } : Verdict).equal = true ∧ ({ pendCommit with sigB := some 1 } : Verdict).equal = false ∧
    (judged (some 1) true).asy.recovery = true ∧ (judged none false).pair.role ≠ .handOut ∧ (judged none false).pair.role ≠ .handIn ∧
    (judged none false).pair.role ≠ .faulted ∧
    ({ judged none false with pair := { (judged none false).pair with role := .standby } }).pair.role = .standby := by decide

/-- Equal signatures release the commit; unequal ones start a rollback, code 1 (R287, R289, R290). -/
theorem test_verdict : (match exec (.assayVerdict ⟨none, none, true⟩) (judged (some 0) false) with
      | .next u => some (u.asy.pend.length, u.asy.rollback) | _ => none) = some (0, none) ∧
    (match exec (.assayVerdict ⟨none, none, true⟩) (judged (some 1) false) with
      | .next u => some (u.asy.misCode, u.asy.rollback, u.asy.recovery) | _ => none) = some (1, some 40, true) := by decide +kernel

theorem witness_Watchdog : ({ base.wdt with armed := true } : WdtState).armed = true ∧ base.wdt.stopped = false ∧ wdtPeriod base = 200000 ∧ wdtOpens base = 25000 ∧
    resetUnderWay base = false ∧ wdtOpens base ≤ min (wdtPeriod base - 1) (base.wdt.count + 25000) ∧
    min (wdtPeriod base - 1) (base.wdt.count + 24999) < wdtOpens base := by decide

/-- An OUT of a key while the counting clock is stopped (R314). -/
theorem witness_TaskTime_key : let s := hfAt false [(0, 0x0E00)]
    hfFetches { s with wdt := { s.wdt with stopped := true } } = true ∧ s.hf.p = false ∧
      (s.hf.w[(0 : Reg)] + BitVec.ofNat 16 (0 : BitVec 14).toNat).toNat = 0x0E00 := by decide

/-- The OUT of a key to a watchdog whose clock has stopped stays open (R314). -/
theorem test_watchdog_open : let s := hfAt false [(0, 0x0E00), (1, 0xC3A5)]
    (match exec (.hfOut .al 1 0 0) { s with wdt := { s.wdt with armed := true, stopped := true } } with
      | .next u => some (u.wdt.held, u.wdt.served, u.hf.pc) | _ => none) = some (true, 0, 0x100) := by decide +kernel

/-- A key at 25,000 restarts the count, one at 24,999 trips EARLY (R313, R315). -/
theorem test_watchdog : let s := { base with wdt := { base.wdt with armed := true } }
    (match exec (.wdtKeyLand 0xC3A5 25000) s with | .next u => some (u.wdt.land, u.wdt.count, u.wdt.trip, u.wdt.last) | _ => none) =
      some (25000, 0, 0, 1) ∧
    (match exec (.wdtKeyLand 0xC3A5 24999) s with | .next u => some (u.wdt.trip, u.pair.role, u.sys.cause) | _ => none) =
      some (1, .faulted, 4) := by decide +kernel

/-- Channel 3 busy with a Headframe transfer. -/
def tramming (d : TramDesc) (k : Nat) (ab : Bool) : State :=
  base.modTram 3 (fun c => { c with busy := true, desc := d, k := k, abortReq := ab })

def copyDesc : TramDesc := { TramDesc.init with srcRam := true, dstRam := true, srcOff := 0x100, dstOff := 0x200, count := 2 }

theorem witness_TramTransfers : (∀ q : TramCh, base.tram.ch[q].busy = false) ∧ nextChannel (tramming copyDesc 1 false) = some 3 ∧
    taskOwned base 3 = false ∧ taskOwned base 0 = true ∧ copyDesc.srcOff + 4 * 1 + 3 < 131072 ∧
    131072 ≤ ({ copyDesc with srcOff := 131068 }).srcOff + 4 * 1 + 3 ∧
    (ramDescriptor base.msg 3).valid = false ∧
    (ramDescriptor (memWriteSeq [] (5 * 16384 + 48) [0x100, 4, 0, 0x200, 0, 2, 0, 0, 0]) 3).valid = true := by decide +kernel

/-- A task's channel in a pair, both lanes with the same source word. -/
theorem witness_TramTransfers_task : ∃ s : State, nextChannel s = some 0 ∧ taskOwned s 0 = true ∧ isPaired s = true ∧
    s.tram.ch[(0 : TramCh)].desc.srcRam = false ∧ s.tram.ch[(0 : TramCh)].desc.dstRam = true ∧
    sourceIn { s with tram := { s.tram with last := 0 } } .a 0 s.tram.ch[(0 : TramCh)].desc 0 = (0, 0) ∧
    sourceIn { s with tram := { s.tram with last := 0 } } .b 0 s.tram.ch[(0 : TramCh)].desc 0 = (0, 0) :=
  ⟨(atWork false cyc regs).modTram 0 (fun c => { c with busy := true, desc := { TramDesc.init with srcSel := 1, dstRam := true, count := 1 } }),
    by decide +kernel⟩

/-! ### The pair, the field die, the buses: states that meet the hypotheses -/

/-- A paired part with its pair registers changed. -/
def pairIs (f : PairState → PairState) : State := let s := running false; { s with pair := f s.pair }

/-- A standby that is MIRRORED and has received frame 4. -/
def standby (m : Mirror) : State :=
  pairIs (fun p => { p with role := .standby, claim := 0, mirror := m, rxSeq := some 4, present := true, prole := .active, cwOk := false })

/-- An active part that may swap. -/
def swaps (r : Role) : State :=
  pairIs (fun p => { p with role := r, present := true, prole := .standby, pmirror := 2, cwOk := true, pflags := 8, swapLeft := some 0 })

/-- A part of a pair that negotiates. -/
def negotiating : State :=
  let s := pairIs (fun p => { p with role := .negotiate, claim := 0 })
  { s with sys := { s.sys with phase := .negotiating } }

theorem witness_PairActions : linkUp base = false ∧ linkUp (running false) = true ∧ sendsHello (running false) = true ∧
    (running false).pair.missing + 1 < 4 ∧
    sendsHello (swaps .active) = false ∧
    (∃ s : State, linkUp s = true ∧ s.pair.missing = 3 ∧ s.pair.present = true ∧ s.pair.role = .active ∧ s.asy.recovery = false) ∧
    (∃ s : State, linkUp s = true ∧ s.pair.missing = 3 ∧ s.pair.present = true ∧ s.asy.recovery = true) ∧
    (∃ s : State, linkUp s = true ∧ s.pair.missing = 3 ∧ s.pair.present = true ∧ s.asy.recovery = false ∧ s.pair.role = .handOut ∧
      s.pair.handSent = false) ∧
    (∃ s : State, linkUp s = true ∧ s.pair.missing = 3 ∧ s.pair.role = .standby ∧ s.pair.mirror = .mirrored ∧ s.pair.take = none ∧
      wireAllows s = true) ∧
    (∃ s : State, s.sys.phase = .negotiating ∧ linkUp s = true ∧ s.pair.role = .negotiate ∧ s.pair.take = none) ∧
    (∃ s : State, s.pair.txQueue = [.heartbeat]) ∧
    (swapCounts (swaps .active) = true ∧ (swaps .active).pair.swapLeft = some 0 ∧ (swaps .active).pair.swapRetryDue = false ∧
      swapRefusal (swaps .active) = 0) ∧
    (∃ s : State, swapCounts s = true ∧ s.pair.swapLeft = some 0 ∧ s.pair.swapRetryDue = false ∧ swapRefusal s ≠ 0) ∧
    (∃ s : State, s.pair.swapRetryDue = true ∧ s.pair.role = .active ∧ swapRefusal s = 0) := by
  refine ⟨by decide, by decide, by decide, by decide, by decide, ?_, ?_, ?_, ?_, ?_, ?_, by decide, ?_, ?_⟩
  · exact ⟨pairIs (fun p => { p with missing := 3, present := true }), by decide⟩
  · exact ⟨let s := pairIs (fun p => { p with missing := 3, present := true }); { s with asy := { s.asy with recovery := true } }, by decide⟩
  · exact ⟨let s := swaps .handOut; { s with pair := { s.pair with missing := 3 } }, by decide⟩
  · exact ⟨let s := standby .mirrored; { s with pair := { s.pair with missing := 3 } }, by decide⟩
  · exact ⟨negotiating, by decide⟩
  · exact ⟨pairIs (fun p => { p with txQueue := [.heartbeat] }), by decide⟩
  · exact ⟨let s := swaps .active; { s with pair := { s.pair with cwOk := false } }, by decide⟩
  · exact ⟨let s := swaps .active; { s with pair := { s.pair with swapRetryDue := true } }, by decide⟩

/-- A resync of two words in a row, and of two apart; a take of the lowest and of the highest epoch that a part may take. -/
theorem witness_PairActions_more :
    (∃ s : State, s.pair.role = .active ∧ linkUp s = true ∧ s.pair.resyncLeft = some [0x100, 0x101] ∧
      (addressRun 255 [0x100, 0x101]).length = [0x101].length + 1 ∧ (addressRun 255 [0x100, 0x108]).length < [0x108].length + 1) ∧
    (∃ s : State, ∃ s1, s.pair.take = some .takeover ∧ s.pair.high = 0 ∧ firmwareCommit s sysEpoch (leBytes 4 (s.pair.high.toNat + 1)) = (s1, true)) ∧
    (∃ s : State, ∃ s1, s.pair.take = some .takeover ∧ s.pair.high.toNat = 0x7FFFFFFE ∧
      firmwareCommit s sysEpoch (leBytes 4 (s.pair.high.toNat + 1)) = (s1, false)) ∧
    (∃ s : State, s.pair.role = .handOut ∧ s.pair.handSent = false ∧ handReady s = true ∧ linkUp s = true) ∧
    (∃ s : State, s.pair.role = .handOut ∧ s.pair.handSent = true) ∧
    (∃ s : State, s.pair.cwOk = false ∧ s.pair.present = true ∧ s.pair.role = .standby ∧ s.pair.cwLong = false) := by
  refine ⟨?_, ?_, ?_, ?_, ?_, ?_⟩
  · exact ⟨pairIs (fun p => { p with resyncLeft := some [0x100, 0x101] }), by decide⟩
  · exact ⟨pairIs (fun p => { p with take := some .takeover }), _, by decide, by decide, rfl⟩
  · exact ⟨let s := pairIs (fun p => { p with take := some .takeover, high := 0x7FFFFFFE }); { s with pil := { s.pil with pfw := true } },
      _, by decide, by decide, rfl⟩
  · exact ⟨swaps .handOut, by decide⟩
  · exact ⟨let s := swaps .handOut; { s with pair := { s.pair with handSent := true } }, by decide⟩
  · exact ⟨standby .none, by decide⟩

/-- A HELLO of the partner, with its role. -/
def hello0 (r : Role) : HelloFrame :=
  { helloPayload (running false) 0 with unit := 1, role := BitVec.ofNat 8 r.code }

def beat (r : Role) : HeartbeatFrame := { heartbeatPayload (running false) with role := BitVec.ofNat 8 r.code }

theorem witness_PairFrames : (Role.ofCode (0xFF : Byte).toNat = none ∧ Role.ofCode (hello0 .active).role.toNat = some .active) ∧
    ((running false).sys.phase ≠ .negotiating ∧ (standby .none).pair.role ≠ .alone ∧ (standby .none).pair.role ≠ .active) ∧
    (negotiating.sys.phase = .negotiating ∧ negotiating.pair.role = .negotiate ∧ negotiating.pair.take = none ∧ linkUp negotiating = true ∧
      (hello0 .wait).unit ≠ (helloPayload negotiating 0).unit ∧ (hello0 .wait).pairId = (helloPayload negotiating 0).pairId ∧
      holdsClaim .active = true ∧ holdsClaim .standby = false) ∧
    (linkUp base = false ∧ fromActive (standby .mirrored) = true ∧ fromActive (running false) = false ∧ fromStandby (swaps .active) = true ∧
      fromStandby (running false) = false ∧ (running false).pair.prole ≠ .active ∧ (swaps .handOut).pair.role = .handOut) ∧
    (∃ s : State, s.pair.role = .alone ∧ linkUp s = true) ∧
    (∃ s : State, s.pair.role = .active ∧ s.pair.demoting = false ∧ s.pair.claim.toNat < ({ hello0 .active with lastClaim := 0xFFFF } : HelloFrame).lastClaim.toNat ∧
      ∀ x ∈ s.laneA.journal ++ s.laneB.journal, x.err = false) ∧
    (∃ s : State, fromActive s = true ∧ s.pair.role ≠ .standby) ∧
    (Role.ofCode (beat .active).role.toNat = some .active ∧ (standby .mirrored).pair.rxSeq = some (5 - 1) ∧
      (standby .mirrored).pair.role = .standby ∧ (standby .mirrored).pair.utDue = none) ∧
    ((standby .mirrored).pair.mirror = .mirrored ∧ (standby .mirrored).pair.rxDeltaOk = true ∧
      ((standby .mirrored).pair.rxDelta ++ [(0x100, 1)]).length = ({ trailer0 with records := 1 } : Trailer).records.toNat ∧
      ((standby .mirrored).pair.rxDelta ++ [(0x100, 1)]).length ≠ trailer0.records.toNat) ∧
    ((6 : W32) ≠ 4 + 1 ∧ (running false).pair.role ≠ .standby) ∧
    (∃ s : State, s.pair.utDue = some true ∧ s.pair.role = .standby) ∧
    (∃ s : State, s.pair.role = .standby ∧ s.pair.mirror = .resync ∧ s.pair.rxSeq = some (5 - 1) ∧ s.pair.resyncLeft = some [0x105] ∧
      (mirroredWords s).head? ≠ some (0x105 : W32).toNat ∧ ∀ l t, s.cycle l t = none) ∧
    (∃ s : State, s.pair.role = .standby ∧ s.pair.mirror = .resync ∧ s.pair.rxSeq = some (5 - 1) ∧ s.pair.resyncLeft = some []) ∧
    ((standby .mirrored).pair.dseq = (ownToken (standby .mirrored)).dseq ∧ (standby .mirrored).pair.rxDelta = [] ∧
      (standby .mirrored).pair.take = none ∧ linkUp (standby .mirrored) = true) ∧
    (pairIs (fun p => { p with role := .handIn })).pair.role = .handIn ∧
    (∃ s : State, s.pair.claim = 0 ∧ s.pair.role = .wait ∧ resetUnderWay s = false) ∧ (running false).pair.claim ≠ 0 ∧
    ((swaps .active).pair.role = .active ∧ swapRefusal (swaps .active) = 0) := by
  refine ⟨by decide, by decide, ⟨by decide, by decide, by decide, by decide, by decide, rfl, by decide, by decide⟩, by decide, ?_, ?_, ?_,
    by decide, by decide, by decide, ?_, ?_, ?_, by decide, by decide, ?_, by decide, by decide⟩
  · exact ⟨pairIs (fun p => { p with role := .alone }), by decide⟩
  · exact ⟨pairIs (fun p => { p with demoting := false }), by decide⟩
  · exact ⟨pairIs (fun p => { p with prole := .active }), by decide⟩
  · exact ⟨let s := standby .none; { s with pair := { s.pair with utDue := some true } }, by decide⟩
  · exact ⟨let s := standby .resync; { s with pair := { s.pair with resyncLeft := some [0x105] } }, by decide, by decide, by decide, by decide,
      by decide +kernel, by intro l t; cases l <;> revert t <;> decide⟩
  · exact ⟨let s := standby .resync; { s with pair := { s.pair with resyncLeft := some [] } }, by decide⟩
  · exact ⟨pairIs (fun p => { p with claim := 0, role := .wait }), by decide⟩

/-- A DELTA with one record and its trailer writes the word in both lanes (R341). -/
theorem test_delta : (match exec (.delta 5 true [(0x100, 9)] (some { trailer0 with records := 1 })) (standby .mirrored) with
    | .next u => some (memGet u.laneA.mem 0x100, memGet u.laneB.mem 0x100, u.pair.dseq) | _ => none) = some (9, 9, 5) := by decide +kernel

/-- A swap is refused with reason 18 while the claim wire is lost (R347). -/
theorem test_swap_refused : (match exec (.pairCmdSwap false) (let s := swaps .active; { s with pair := { s.pair with cwOk := false } }) with
    | .next u => some (u.pair.role, u.pair.swapRefused) | _ => none) = some (.active, true) := by decide +kernel

/-- A field die that runs its firmware, with channel 3 set as given. -/
def field (f : ChanSt → ChanSt) : State :=
  let s := running false
  { s with fd := { s.fd with
    loaded := true, configured := true, claim := 3, silent := false, stage := .drive, now := 5000, rxSeq := some 4
    ch := vecModify s.fd.ch 3 f }, fld := { s.fld with rxSeq := some 4 } }

def statusOf (s : State) (stage : BitVec 2) : StatusPayload := { statusPayload s.fd with stage := stage }

theorem witness_FieldLinks : (∃ s : State, s.fld.waiting = some ⟨1, 2, true⟩) ∧
    (base.fld.waiting = none ∧ base.fld.hbDue = false ∧ base.fld.configDue = false ∧ base.fd.statusDue = false ∧ base.asy.recovery = false) ∧
    ({ base.fld with configDue := true } : FldState).configDue = true ∧ ({ base.fd with statusDue := true } : FdState).statusDue = true ∧
    ({ base.fld with hbDue := true } : FldState).hbDue = true ∧ (field id).fd.rxSeq = some (5 - 1) ∧ base.fd.rxSeq = none ∧
    (field id).fd.loaded = true ∧ base.fd.loaded = false ∧ (field id).fld.rxSeq = some (5 - 1) ∧ base.fld.rxSeq = none ∧
    (statusOf (field id) 3).stage = 3 ∧ (pairIs (fun p => { p with withdrawing := true })).pair.withdrawing = true ∧
    base.sys.state = .running ∧ State.reset.sys.state ≠ .running ∧ wireValid 0 = false ∧ wireValid (wireFrame 3 false 1) = true := by
  refine ⟨⟨{ base with fld := { base.fld with waiting := some ⟨1, 2, true⟩ } }, by decide⟩, by decide +kernel⟩

/-- Equal claims never both drive, whichever is silent (R333). -/
theorem test_stage : stageOfClaims 4 false true 5 false = .released ∧ stageOfClaims 5 false true 4 false = .drive ∧
    stageOfClaims 4 false true 4 false = .safe ∧ stageOfClaims 4 true false 0 false = .safe ∧ stageOfClaims 4 false true 5 true = .safe := by
  decide

/-- An output of MODE 3 that is commanded on, and input records at their limits. -/
def out3 (x : ChanSt) : ChanSt := { x with cfg := { FieldRec.init with mode := 3, pullTest := true }, cmd := true, driver := true }

def in1 (x : ChanSt) : ChanSt := { x with cfg := { FieldRec.init with mode := 1, on := 40, off := 20 } }

theorem witness_FieldChannels :
    ((field in1).fd.loaded = true ∧ (field in1).fd.configured = true ∧ (field in1).fd.loopback = false ∧
      (field in1).fd.ch[(3 : Chan)].cfg.mode = 1 ∧ 2000 + 250 * (40 : Byte).toNat ≤ 12000 ∧ 2000 + 250 * (20 : Byte).toNat < 7001) ∧
    (base.fd.loaded = false ∧ 100 ≤ ({ base.fd with vfBelow := 100, vfAbove := 100 } : FdState).vfBelow) ∧
    (let d := (field out3).fd; let x := d.ch[(3 : Chan)]; x.cfg.mode = 3 ∧ x.pulse = none ∧ x.pull = false ∧ inSettle d x = false ∧
      inInrush d x = false ∧ d.stage = .drive ∧ x.latched = false ∧ x.thermalLatch = false ∧ partnerDrives d = false ∧ x.thermal = false ∧
      x.driver = true ∧ x.missed ≠ 9 ∧ 2 ≤ x.cfg.mode.toNat ∧ (1 : W16).toNat < d.openMa ∧ disagrees x 11999 = true ∧
      disagrees x 12000 = false) ∧
    (field (fun x => { out3 x with latched := true })).fd.ch[(3 : Chan)].latched = true ∧
    (let x := (field (fun x => { out3 x with driver := false, cmd := false, pulsePassed := true })).fd.ch[(3 : Chan)]
     x.cfg.pullTest = true ∧ x.cfg.mode = 3 ∧ x.pulsePassed = true ∧ x.driver = false ∧ disagrees x 4001 = true ∧ disagrees x 4000 = false) ∧
    (let d := (field (fun x => { out3 x with driver := false, cmd := false, cfg := { FieldRec.init with mode := 2, pullTest := true } })).fd
     let x := d.ch[(3 : Chan)]
     x.cfg.pullTest = true ∧ x.cfg.mode = 2 ∧ x.driver = false ∧ d.stage = .drive ∧ partnerDrives d = false) ∧
    partnerDrives { base.fd with cwValid := true, cwStage := 1 } = true ∧
    (field (fun x => { out3 x with missed := 9 })).fd.ch[(3 : Chan)].missed = 9 ∧
    (field (fun x => { out3 x with pulse := some .dark })).fd.ch[(3 : Chan)].pulse = some .dark ∧
    (field (fun x => { out3 x with pulse := some .bright })).fd.ch[(3 : Chan)].pulse = some .bright ∧
    (field (fun x => { out3 x with pull := true })).fd.ch[(3 : Chan)].pull = true ∧
    inInrush (field (fun x => { out3 x with onAt := some 4001 })).fd (field (fun x => { out3 x with onAt := some 4001 })).fd.ch[(3 : Chan)] = true := by
  decide +kernel

/-- The 16th shutdown latches (R386). -/
theorem test_thermal_latch : (match exec (.thermalShutdown 3 500) (field (fun x => { out3 x with shutdowns := 15 })) with
    | .next u => some (u.fd.ch[(3 : Chan)].thermalLatch, u.fd.ch[(3 : Chan)].driver) | _ => none) = some (true, false) := by decide +kernel

/-- A controller on its bus. -/
def bus (f : MbState → MbState) : State :=
  let s := running true
  { s with mb := s.mb.set 1 (f { s.mb[(1 : Bus)] with phase := .active, nom := ⟨1, 30, 10, 4⟩, dat := ⟨1, 6, 2, 2⟩ }) }

/-- Mailbox 5 of bus 1 in a state. -/
def boxed (st : Nat) (f : MbState → MbState) : State :=
  let s := bus f
  mbxSetState s 1 5 st

theorem witness_MessageBuses :
    (onBus (bus id).mb[(1 : Bus)] = true ∧ (bus id).mb[(1 : Bus)].listen = false ∧ (bus id).mb[(1 : Bus)].ard = false ∧
      (bus id).mb[(1 : Bus)].sending = none ∧ (bus id).mb[(1 : Bus)].newTiming = none ∧ Memory.wf (boxed 1 id).msg = true ∧
      mbxState (boxed 1 id) 1 5 = 1 ∧ ∀ j : Fin 64, j ≠ 5 → mbxState (boxed 1 id) 1 j.val ≠ 1) ∧
    onBus base.mb[(1 : Bus)] = false ∧ frame0.brs = false ∧
    (∃ f : CanFrame, f.brs = true ∧ f.fdf = true) ∧
    ((bus (fun m => { m with sending := some (5, frame0, 0) })).mb[(1 : Bus)].sending = some (5, frame0, 0) ∧
      (bus id).mb[(1 : Bus)].ending = .none ∧ (bus id).mb[(1 : Bus)].tec + 8 + 8 * 30 < 256 ∧ (bus id).mb[(1 : Bus)].tec < 240) ∧
    ((bus (fun m => { m with newTiming := some (m.nom, m.dat) })).mb[(1 : Bus)].newTiming.isSome = true ∧
      (bus (fun m => { m with ard := true })).mb[(1 : Bus)].ard = true ∧ (bus id).mb[(1 : Bus)].phase ≠ .disabled) ∧
    (ingressMatch (bus id) 1 frame0 = none ∧ serviceBus (bus id) 1 = false ∧ firstFilter (bus id) 1 [] frame0 = none ∧
      (bus id).mb[(1 : Bus)].tec < 128 ∧ (bus id).mb[(1 : Bus)].phase = .active) ∧
    (248 ≤ (bus (fun m => { m with tec := 248 })).mb[(1 : Bus)].tec) ∧
    ((bus (fun m => { m with phase := .integrating })).mb[(1 : Bus)].phase = .integrating ∧
      (bus (fun m => { m with phase := .recovering })).mb[(1 : Bus)].phase = .recovering) ∧
    ((boxed 1 (fun m => { m with lifeOn := 1 <<< 5 })).mb[(1 : Bus)].lifeOn.getLsbD 5 = true ∧ mbxState (boxed 2 id) 1 5 = 2) ∧
    (egressBus base 0 = true ∧ (bus (fun m => { m with rxCount := 1 })).mb[(1 : Bus)].rxCount = 1) ∧
    ((bus (fun m => { m with held := true, phase := .busOff })).mb[(1 : Bus)].held = true) ∧
    (expertGranted base (mbPort 1 0x100) = true ∧ timingValid (writtenTiming (bus id).mb[(1 : Bus)] 0) = false) := by
  refine ⟨by decide +kernel, by decide, by decide, ⟨{ frame0 with brs := true, fdf := true }, by decide⟩, ?_⟩
  decide +kernel

/-- A filter that accepts and one that rejects every frame, and a full FIFO (R409, R411). -/
theorem witness_MessageBuses_filters :
    firstFilter (bus id) 1 [(0, 1), (1, 0x8000), (2, 0xFFFF)] frame0 = some (0, false) ∧
    firstFilter (bus id) 1 [(0, 1), (1, 0x8000), (2, 0xFFFF), (3, 0x8000)] frame0 = some (0, true) ∧
    (bus (fun m => { m with rxCount := 128 })).mb[(1 : Bus)].rxCount = 128 := by decide +kernel

/-- A mailbox is sent: SENT, with TEC one less (R406, R411). -/
theorem test_sent : (match exec (.canFrameSent 1 ⟨0, by decide⟩) (boxed 2 (fun m => { m with tec := 9, sending := some (5, frame0, 0) })) with
    | .next u => some (mbxState u 1 5, u.mb[(1 : Bus)].tec) | _ => none) = some (3, 8) := by decide +kernel

/-! ### Blocks, the host port, Obtum, updates and the test access port -/

/-- A running part with ingress block 3 complete and its set open or not. -/
def ingress (blk : IngBlk) (noted : Bool) (delivery : List (DEvent × W48)) : State :=
  let s := running false
  { s with
    ing := { s.ing with blocks := [(3, blk)], ready := [⟨3, [5], true, noted⟩] }
    seq := { s.seq with delivery := delivery, ut := 20100 } }

def blk0 : IngBlk := ⟨some [0], some 100, some 100, 3, true⟩

theorem witness_BlocksAndHost : (∀ e ∈ (ingress blk0 false []).ing.ready, e.block ≠ 1) ∧
    ((ingress blk0 false []).ing.ready = [⟨3, [5], true, false⟩] ∧ ingressRec (ingress blk0 false []) 3 = some ⟨3, 0, 0, 0, 0, 1, 1, 20, 8, 0⟩ ∧
      (ingress blk0 false []).sys.state = .running ∧ deliveryFull (ingress blk0 false []) = false) ∧
    (∃ r : IngRec, r.src = 2 ∧ r.fresh = 20) ∧
    ((ingBlk (ingress blk0 false []) 3).fresh = some 100 ∧ (ingBlk (ingress blk0 false []) 3).valid = true ∧
      1000 * 20 ≤ ((ingress blk0 false []).seq.ut - 100).toNat ∧ (ingBlk (ingress blk0 false []) 3).open_ ≠ none) ∧
    (hostServes State.reset = false ∧ hostServes base = true) ∧
    (egressBus base 0 = true ∧ mbxState base 0 48 ≠ 1 ∧ mbxState base 0 48 ≠ 2) ∧
    (∃ s : State, s.ing.queue[(0 : Bus)] = [⟨1, frame0⟩]) ∧
    (boxField base 3 0 ≠ 1 ∧ hostKind base 3 = 0 ∧ (0x7FFE : W32).toNat < 0x8000 ∧ 16 ≤ (0x7010 : W32).toNat % 4096) ∧
    (∃ s : State, boxField s 3 0 = 1 ∧ s.host.pend.getLsbD 3 = true ∧ Memory.wf s.msg = true ∧ hostServes s = true) := by
  refine ⟨by decide, by decide, ⟨⟨3, 2, 0, 0, 0, 1, 1, 20, 8, 0⟩, by decide⟩, by decide, by decide, by decide, ⟨{ base with ing := { base.ing with queue := base.ing.queue.set 0 [⟨1, frame0⟩] } }, by decide⟩,
    by decide, ⟨{ base with msg := memSet [] (2048 * 3) 1, host := { base.host with pend := 8 } }, by decide⟩⟩

/-- The last word of mailbox 7 is written by the host, the first word past the mailboxes is not (R433, R434). -/
theorem test_host_write : (match exec (.hostWrite 0x7FFE [0x34, 0x12]) base with | .next u => some (memGet u.msg 0x3FFF) | _ => none) =
      some 0x1234 ∧
    (match exec (.hostWrite 0x8000 [0x34, 0x12]) base with | .next u => some (memGet u.msg 0x4000) | _ => none) = some 0 := by decide +kernel

/-- A pair whose part may run every command. -/
theorem witness_ObtumCommands : obtumServes base (.mailbox 3) = true ∧ obtumServes State.reset (.mailbox 3) = false ∧
    (∀ cmd : Fin 0x15, stateRefuses (running false) cmd.val = false) ∧
    (∃ s : State, obtumServes s (.mailbox 3) = true ∧ ∀ cmd : Fin 0x15, stateRefuses s cmd.val = decide (3 < cmd.val)) ∧
    (∃ s : State, obtumServes s (.mailbox 3) = true ∧ stateRefuses s 3 = false ∧ 0 < s.evt.count ∧
      leAt [0, 0, 0, 0, 126, 0, 0, 0] 0 4 = (firstSeq s).toNat) ∧
    leAt [0, 0, 0, 0, 126, 0, 0, 0] 4 2 = 126 ∧ zeros [0, 0, 0, 0, 126, 0, 0, 0] 6 2 = true ∧ leAt [1, 1, 0x20, 3, 0, 0, 0, 0] 2 2 = 800 ∧
    (∃ s : State, s.cht.charter = some (charter false) ∧ (ownerKey s 0).isSome = true ∧ s.pil.pfw = false ∧ nonceValid s (List.replicate 32 7) = true ∧
      leAt (List.replicate 154 0) 4 4 = s.evt.seq.toNat) ∧
    (editEntries (leBytes 2 1 ++ leBytes 2 0 ++ leBytes 4 0x110 ++ leBytes 3 0 ++ leBytes 5 5) 1).isSome = true ∧
    (taskRec base 0).isSome = true ∧ taskRec base 1 = none ∧ startable base 0 = true ∧
    (⟨399, 12, 31, 23, 59, 59, 0⟩ : Cal).valid = true ∧ (⟨25, 2, 29, 0, 0, 0, 0⟩ : Cal).valid = false := by
  refine ⟨by decide, by decide, by decide, ?_, ?_, by decide, by decide, by decide, ?_, by decide, by decide, by decide, by decide, by decide⟩
  · exact ⟨let s := running false; { s with sys := { s.sys with state := .halt } }, by decide⟩
  · exact ⟨let s := running false; { s with evt := { s.evt with count := 1 } }, by decide⟩
  · refine ⟨let s := running false; { s with
      fuses := { s.fuses with word := s.fuses.word.set 40 1 }
      obt := { s.obt with nonce := some (List.replicate 32 7, 0) }, seq := { s.seq with ut := 60000000 } }, ?_⟩
    decide +kernel

/-- A response at byte 16 of mailbox 3 (R434, R439, R442): command 0x55 is unknown. -/
theorem test_obtum_unknown : (match exec (.obtumUnknown (.mailbox 3) 9 0x55)
      { base with obt := { base.obt with reqs := [(.mailbox 3, [0x55, 0, 0, 0, 9, 0, 0, 0])] } } with
    | .next u => some (msgBytes u.msg (4096 * 3 + 16) 12, boxField u 3 2, boxField u 3 6) | _ => none) =
    some ([0x55, 0x80, 0, 0, 9, 0, 0, 0, 1, 0, 0, 0], 12, 1) := by decide +kernel

/-- A part with flash on port 0 and a session of the charter kind; `st` is the state of its slot B. -/
def updating (next_ : Nat) (st : Byte) (mark : Bool) : State :=
  let s := running false
  let d : DirRecord := { (freshRecord) with charter := ⟨0, 3, st, 0, 4, [], []⟩ }
  { s with
    flash := { s.flash with p0 := some 64, dir0 := some { d with crc := crc32c (directoryBytes d) } }
    xsp := { s.xsp with p0 := 64 }
    sec := { s.sec with vmark := if mark then s.sec.vmark.set 1 (some 4) else s.sec.vmark }
    obt := { s.obt with sessions := [⟨.mailbox 3, .charter, true, 4097, next_, List.replicate 2048 1, 0, [], []⟩] } }

/-- Hypotheses of ImageUpdates; whether a verification succeeds is a free function of Config, so that of its two clauses the one that fails
is shown, for a slot without a header. -/
theorem witness_ImageUpdates : obtumServes (updating 3 2 false) (.mailbox 3) = true ∧ (updating 3 2 false).sys.state = .running ∧
    session (running false) .charter = none ∧ activeSlot (running false) .charter = (running false).xsp.inUse[kindIx .charter] ∧
    (updating 3 2 false).xsp.p0 ≠ 0 ∧ largestSlot .charter < 2 ^ 32 ∧
    (session (updating 3 2 false) .charter).map (fun x => (x.owner, x.nextHalf, sessionOpen x)) = some (.mailbox 3, 3, true) ∧
    (2 * 1 + 1 = 3 ∧ 2 * 1 + 0 + 1 = 3) ∧ (updating 3 2 false).pil.pfw = false ∧ kindPort (updating 3 2 false) .charter = true ∧
    (updating 3 2 false).sec.busy = false ∧ (∃ c, ({ base.xsp with dirq := [c] } : XspState).dirq = [c]) ∧
    verifyWhole (updating 3 2 false) .charter true = .error (1, 0) := by
  and_intros <;> first
    | exact ⟨⟨.charter, true, 1, false, [], false⟩, rfl⟩
    | rfl
    | decide

set_option maxRecDepth 40000 in
/-- The states of the slot and its mark. -/
theorem witness_ImageUpdates_slots : entryState (entryOf (currentRecord (updating 3 2 false).flash) .charter) true = slotLoaded ∧
    entryState (entryOf (currentRecord (updating 3 1 false).flash) .charter) true ≠ slotLoaded ∧
    entryState (entryOf (currentRecord (updating 3 1 false).flash) .charter) true ≠ slotFailed ∧
    (updating 3 2 true).sec.vmark[kindIx .charter] = some (entryGen (entryOf (currentRecord (updating 3 2 true).flash) .charter) true) := by
  decide +kernel

/-- A debug session with a scope. -/
def debugging (scope : BitVec 3) (prod unp : Bool) : State :=
  let s := running false
  { s with
    tap := { s.tap with ir := 0x21, prod := prod }, sec := { s.sec with open_ := true, scope := scope }
    asy := { s.asy with unpaired := unp } }

/-- Hypotheses of TestAccess; whether a response verifies is a free function of Config, and both outcomes have their clause. -/
theorem witness_TestAccess : base.fd.loopback = false ∧ (State.reset.sys.state ≠ .running ∧ State.reset.pair.claim = 0) ∧
    (base.sys.state = .running ∧ base.tap.prod = false) ∧ ({ base.tap with ir := 0x20 } : TapState).ir = 0x20 ∧ base.tap.ir ≠ 0x20 ∧
    ((debugging 0 true false).tap.prod = true ∧ stepOneDone base = true ∧ base.sec.open_ = false) ∧
    (fuseDbgLock base = false ∧ base.tap.nonce = none ∧ challengeExpired base = false ∧ base.tap.checking = none) ∧
    (∃ s : State, fuseDbgLock s = true) ∧ (∃ s : State, challengeExpired s = true ∧ s.tap.nonce.isSome = true) ∧
    (∃ s : State, ∃ r, s.tap.checking = some r) ∧
    ((debugging 1 false true).tap.ir = 0x21 ∧ (debugging 1 false true).sec.open_ = true ∧ targetLane .laneA = some .a ∧
      (debugging 1 false true).sec.scope.getLsbD (targetBit .laneA) = true ∧ (debugging 0 false true).sec.scope.getLsbD (targetBit .laneA) = false ∧
      (debugging 1 false true).asy.unpaired = true ∧ (debugging 4 false true).sec.scope.getLsbD 2 = true ∧ targetLane .headframe = none) ∧
    (0x21FFFF : BitVec 24).toNat < 0x220000 ∧ 0x220000 ≤ (0x220000 : BitVec 24).toNat ∧ (0x7FFF : BitVec 24).toNat < 0x8000 ∧
    0x10000 ≤ (0x10000 : BitVec 24).toNat ∧ (43 : BitVec 24).toNat = (43 : Fin 44).val := by
  refine ⟨by decide, by decide, by decide, by decide, by decide, by decide, by decide, ?_, ?_, ?_, by decide, by decide⟩
  · exact ⟨{ base with fuses := { base.fuses with word := base.fuses.word.set 40 0x40000 } }, by decide⟩
  · exact ⟨{ base with tap := { base.tap with nonce := some ([], 61441) } }, by decide⟩
  · exact ⟨{ base with tap := { base.tap with checking := some ⟨1, 0, [], []⟩ } }, _, rfl⟩

/-- A word of Lane A is written and read through the port; the last address exists, the next does not (R28, R572). -/
theorem test_debug_memory : (match exec (.writeMem .laneA 0x21FFFF 5) (debugging 1 false true) with
      | .next u => (match exec (.readMem .laneA 0x21FFFF) u with | .next v => some v.tap.data | _ => none) | _ => none) = some 5 ∧
    (match exec (.readMem .laneA 0x220000) (debugging 1 false true) with | .fault f => some f | _ => none) = some .reservedAddress := by
  decide +kernel

/-- A fuse bit that is burnt stays burnt (R574). -/
theorem test_burn : (match exec (.burn 41 4) (debugging 7 true false) with | .next u => some u.fuses.word[(41 : Fin 44)] | _ => none) =
    some 0x20005 := by decide +kernel

/-! ### Ageing, monitors, the pillar, the backup domain and the recorder -/

def ageing (f : AgeState → AgeState) : State := { base with age := f base.age }

theorem witness_AgeingAndMonitors : (∃ i : Fin 48, i.val + 1 ≠ canaryBase (canaryIsland i) + canaryCount (canaryIsland i)) ∧
    (ageFlag base 0 = true ∧ base.age.planRun = false ∧ base.pil.pfw = false) ∧ ageFlag State.reset 0 = false ∧
    86400 ≤ (ageing (fun g => { g with planAge := 86400 })).age.planAge ∧ base.age.planAge < 86400 ∧ base.age.lostDue = false ∧
    ((ageing (fun g => { g with lostDue := true })).age.lostDue = true ∧ base.sys.state = .running ∧ State.reset.sys.state ≠ .running) ∧
    (((0 : W16).toNat < base.age.slackTarget) ∧ base.laneA.ldo < ldoMax base + 1) ∧
    (planMayChange base = true ∧ planOf (ageing (fun g => { g with planA := .stepDue true })) .a = .stepDue true ∧
      planOf (ageing (fun g => { g with planA := .remeasure false })) .a = .remeasure false ∧ planOf base .b ≠ .done ∧ planOf base .b ≠ .dividerDue ∧
      planOf (ageing (fun g => { g with planA := .dividerDue })) .a = .dividerDue) ∧
    planMayChange { base with pil := { base.pil with pfw := true } } = false ∧
    (base.hlt.layout[(0 : Point)].source ≠ 0 ∧ base.hlt.lim[(0 : Point)] = 0) ∧
    (∃ s : State, s.hlt.layout[(0 : Point)].source = 0) ∧ (∃ s : State, s.hlt.lim[(0 : Point)] ≠ 0 ∧ s.hlt.lim[(0 : Point)] < (8 : W32)) ∧
    expertGranted base 0x2702 = true ∧ layoutValid 1 0 true 1 0 = true ∧ layoutValid 1 0 true 1 1 = false := by
  and_intros <;> first
    | exact ⟨0, by decide⟩
    | exact ⟨{ base with hlt := { base.hlt with layout := base.hlt.layout.set 0 ⟨0, 0, false, 0, 0⟩ } }, by decide⟩
    | exact ⟨{ base with hlt := { base.hlt with lim := base.hlt.lim.set 0 7 } }, by decide⟩
    | decide

/-- The pillar at its borders: a page of the system area, of the parameter area, of the event area, and under the warning. -/
def pillar (f : PilState → PilState) : State := { base with pil := f base.pil }

theorem witness_PillarStore_errors : (∀ g ∈ base.pil.bad ++ base.pil.single, g / 8 ≠ (5 : W16).toNat % 16384) ∧
    (∃ g ∈ (pillar (fun p => { p with single := [41] })).pil.single, g / 8 = (5 : W16).toNat % 16384) ∧
    (∃ g ∈ (pillar (fun p => { p with bad := [41] })).pil.bad, g / 8 = (5 : W16).toNat % 16384) ∧
    (pillar (fun p => { p with single := [41] })).pil.single ≠ [] ∧ (pillar (fun p => { p with bad := [41] })).pil.bad ≠ [] ∧
    base.laneA.bad = [] ∧ (base.modLane .a (fun x => { x with bad := [3] })).laneA.bad ≠ [] ∧ (7 : Nat) / 8 = 0 / 8 := by decide

theorem witness_PillarStore : base.pil.bad = [] ∧ commitRefusal base (.headframe false) 127 = 0 ∧ commitRefusal base (.headframe false) 4095 = 0 ∧
    commitRefusal base (.headframe false) 4096 = 2 ∧ commitRefusal (pillar (fun p => { p with pfw := true })) (.headframe false) 0 = 1 ∧
    Memory.wf base.pil.sram = true ∧ base.pil.store = .none ∧ (pillar (fun p => { p with store := .copyDue })).pil.store = .copyDue ∧
    (pillar (fun p => { p with store := .storing true [] })).pil.store = .storing true [] ∧ (pillar (fun p => { p with store := .copyDue })).pil.store ≠ .none ∧
    (base.sys.phase = .idle ∧ base.pil.pfw = false) ∧ scrubs base = true ∧ base.pil.uncorr = false ∧
    (∃ c : Charter, c.head.scrubDis = true) ∧ sameCheckBits 0x101 0x100 = true ∧
    (pillar (fun p => { p with pfw := true, store := .storing true [] })).pil.store = .storing true [] := by
  and_intros <;> first
    | exact ⟨{ charter true with head := { head true with scrubDis := true } }, rfl⟩
    | decide

/-- The second store goes to the other bank and counts on (R496). -/
theorem test_store : (match exec (.pillarStoreEnd 7) (pillar (fun p => { p with store := .storing true [(3, 9)], bank0 := ⟨some 4, 2, false, true, []⟩ })) with
    | .next u => some (u.pil.bank1, u.pil.store, u.pil.storeT) | _ => none) = some (⟨some 5, 1, false, true, [(3, 9)]⟩, .none, 7) := by decide +kernel

def backup (f : BkpState → BkpState) : State := { base with bkp := f base.bkp }

theorem witness_BackupDomain : (base.bkp.almEn = false ∧ base.bkp.cal.frac < 1023 ∧ base.bkp.cal.valid = true ∧ base.bkp.locked = false) ∧
    (backup (fun b => { b with cal := { b.cal with frac := 1023 } })).bkp.cal.frac = 1023 ∧
    (backup (fun b => { b with cal := ⟨24, 2, 28, 23, 59, 59, 1023⟩ })).bkp.cal = ⟨24, 2, 28, 23, 59, 59, 1023⟩ ∧
    (backup (fun b => { b with almEn := true, armed := b.cal.advance.1 })).bkp.cal.advance.1 =
      (backup (fun b => { b with almEn := true, armed := b.cal.advance.1 })).bkp.armed ∧
    (backup (fun b => { b with locked := true, pwron := true })).bkp.locked = true ∧
    (stagedCal 0x192 0x1C17 0x3B3B).valid = true ∧ (stagedCal 0 0 0).valid = false ∧
    base.bkp.cal.rank < (stagedCal 0x192 0x1C17 0x3B3B).rank ∧
    (backup (fun b => { b with timeValid := true })).bkp.timeValid = true := by decide

/-- A calendar tick at the end of February of a leap year (R504). -/
theorem test_leap : (match exec .calendarTick (backup (fun b => { b with cal := ⟨24, 2, 29, 23, 59, 59, 1023⟩ })) with
    | .next u => some u.bkp.cal | _ => none) = some ⟨24, 3, 1, 0, 0, 0, 0⟩ := by decide +kernel

def event0 : EvItem := ⟨0, 0, 0x0101, 1, 0, 0, [1, 2], none⟩

def recording (f : EvtState → EvtState) : State := { base with evt := f base.evt }

def window (supp : Nat) : EvWindow := ⟨none, some 0x0101, 2, 10, 150, 2, supp⟩

theorem witness_EventRecorder : base.evt.queue = [] ∧ base.sys.noLog = false ∧ ({ base.sys with noLog := true } : SysState).noLog = true ∧ (recording (fun e => { e with queue := [event0], count := 24575 })).evt.queue = [event0] ∧
    (recording (fun e => { e with queue := [event0], count := 24575 })).evt.count < 24576 ∧
    24576 ≤ (recording (fun e => { e with queue := [event0], count := 24576 })).evt.count ∧ base.pil.pfw = false ∧
    Memory.wf base.pil.sram = true ∧ base.evt.windows.find? (fun w => w.code == none) = none ∧
    (recording (fun e => { e with windows := [window 1] })).evt.windows.find? (fun w => w.code == none) = some (window 1) ∧
    (window 1).closeAt ≤ base.seq.ut ∧ 0 < (window 1).suppressed ∧ (window 0).suppressed = 0 ∧ base.evt.full = false ∧
    base.evt.queue.length < 64 ∧ 0x0102 ∈ unlimitedCodes ++ [0x0102] ∧ (window 0).k ≤ (window 0).posted ∧
    ownWindow base 0x0101 = none ∧ (0x0FFF : W16).toNat < 0x1000 := by decide

theorem witness_EventRecorder_codes : (∃ code, code ∈ unlimitedCodes) ∧ (∃ code, code ∉ unlimitedCodes) ∧
    (∃ s : State, s.evt.pcode.toNat < 0x1000 ∧ portPermitted s 0x2428 true = true) := by
  refine ⟨⟨0x0F01, by decide⟩, ⟨0x0101, by decide⟩, ⟨let s := base; { s with hf := { s.hf with perm := Vector.replicate 4 0xFFFF, perm4 := 0x3FF } }, by decide⟩⟩

/-! ### Further clauses -/

/-- A part that recovers, and one that hands over. -/
def recovering (s : State) : State := { s with asy := { s.asy with recovery := true } }

theorem witness_PairFrames_recovery : linkUp (recovering (standby .none)) = true ∧ (recovering (standby .none)).asy.recovery = true ∧
    Role.ofCode (beat .active).role.toNat = some .active ∧ seqGap (recovering (standby .none)) 7 = true ∧
    (standby .mirrored).asy.recovery = false ∧ linkUp (standby .mirrored) = true := by decide

theorem witness_FieldLinks_faults : (recovering base).asy.recovery = true ∧ handsOver (swaps .handOut) = true ∧ handsOver base = false ∧
    (base.fld.link = false ∧ base.fld.fwOk = false) ∧ (field id).fld.rxSeq = some 4 ∧ (recovering (field id)).fld.rxSeq = some 4 := by decide

/-- FIELDTEST in force (R569). -/
def looped (s : State) : State := { s with fd := { s.fd with loopback := true } }

theorem witness_FieldLinks_link : (∃ s : State, s.fld.link = true ∧ s.fld.fwOk = false) ∧ (∃ s : State, s.fld.link = false ∧ s.fld.fwOk = true) ∧
    (looped base).fd.loopback = true ∧ (3 : Nat) < 4 :=
  ⟨⟨{ base with fld := { base.fld with link := true, fwOk := false } }, by decide⟩,
    ⟨{ base with fld := { base.fld with link := false, fwOk := true } }, by decide⟩, by decide, by decide⟩

theorem witness_FieldChannels_loopback : let s := looped (field out3)
    s.fd.loaded = true ∧ s.fd.loopback = true ∧ s.fd.ch[(3 : Chan)].cfg.mode = 3 ∧ s.fd.ch[(3 : Chan)].cfg.pullTest = true := by decide

/-- FIELDTEST holds a pulse and a pull test back (R569). -/
theorem test_looped_pulse : (match exec (.testPulseSlot 3) (looped (field out3)) with | .next u => some u.fd.ch[(3 : Chan)].pulse | _ => none) =
    some none ∧
    (match exec (.pullTestStart 3) (looped (field out3)) with | .next u => some u.fd.ch[(3 : Chan)].pull | _ => none) = some false := by
  decide +kernel

/-- A timing set within the limits of R401, on a controller that sends and on one that does not. -/
def timed (m : MbState) : MbState := { m with newNbt1 := 0x0303, newDbt0 := 0x0300, newDbt1 := 0x0101 }

theorem witness_MessageBuses_timing : timingValid (writtenTiming (timed (bus id).mb[(1 : Bus)]) 0x0700) = true ∧
    onBus (bus timed).mb[(1 : Bus)] = true ∧ (bus timed).mb[(1 : Bus)].sending = none ∧
    (bus (fun m => { timed m with sending := some (5, frame0, 0) })).mb[(1 : Bus)].sending.isSome = true ∧
    onBus (timed base.mb[(1 : Bus)]) = false := by decide +kernel

theorem witness_MessageBuses_egress : ∃ s : State, egressBus s 0 = true ∧ mbxState s 0 48 ≠ 1 ∧ mbxState s 0 48 ≠ 2 ∧
    s.ing.queue[(0 : Bus)] = [⟨1, frame0⟩] ∧ Memory.wf s.msg = true :=
  ⟨{ base with ing := { base.ing with queue := base.ing.queue.set 0 [⟨1, frame0⟩] } }, by decide⟩

/-- The two ends of a set of the expert timing ports (R401): one value above each. -/
theorem test_timing_limits : timingValid (⟨1, 192, 64, 64⟩, ⟨1, 32, 16, 16⟩) = true ∧ timingValid (⟨1, 193, 64, 64⟩, ⟨1, 32, 16, 16⟩) = false ∧
    timingValid (⟨1, 192, 64, 65⟩, ⟨1, 32, 16, 16⟩) = false := by decide

theorem witness_BlocksAndHost_host : (hostServes base = true ∧ base.clk.lock = true) ∧
    (∃ s : State, hostServes s = true ∧ s.clk.lock = false) ∧
    (∃ s : State, hostKind s 2 = 1 ∧ boxField s 2 0 ≠ 1 ∧ s.sys.state = .running ∧ Memory.wf s.msg = true) ∧
    (∃ s : State, hostKind s 2 = 1 ∧ boxField s 2 0 ≠ 1 ∧ s.sys.state ≠ .running) ∧ (∃ s : State, hostKind s 2 = 2) ∧
    (∀ t, snapshotDue (ingress blk0 false []) t = false) := by
  refine ⟨by decide, ⟨{ base with clk := { base.clk with lock := false } }, by decide⟩, ?_, ?_, ?_, by decide⟩
  · exact ⟨{ base with cht := { base.cht with charter := some { charter true with ingress := [⟨3, 1, 2, 0, 0, 1, 1, 20, 8, 0⟩] } } }, by decide⟩
  · exact ⟨{ State.reset with cht := { base.cht with charter := some { charter true with ingress := [⟨3, 1, 2, 0, 0, 1, 1, 20, 8, 0⟩] } } }, by decide⟩
  · exact ⟨{ base with cht := { base.cht with charter := some { charter true with egress := [⟨1, 1, 2, 0, 0, 1, 0⟩] } } }, by decide⟩

theorem witness_EditQueue_ingress : let s := ingress blk0 false []
    Memory.wf s.msg = true ∧ s.sys.state = .running ∧ s.asy.rollback = none ∧ deliveryFull s = false ∧
    s.ing.ready = [⟨3, [5], true, false⟩] ∧ stale s ⟨3, 0, 0, 0, 0, 1, 1, 20, 8, 0⟩ 100 = true ∧ (ingBlk s 3).valid = true ∧
    (ingBlk s 3).open_ ≠ none := by decide +kernel

/-- A request that has arrived in mailbox 3. -/
def asking (m : List Byte) (f : State → State) : State :=
  let s := f (running false)
  { s with obt := { s.obt with reqs := [(.mailbox 3, m)] } }

/-- CMD, LEN and TAG 9 before a body. -/
def request (cmd : Nat) (body : List Byte) : List Byte := leBytes 2 cmd ++ leBytes 2 body.length ++ leBytes 4 9 ++ body

theorem witness_ObtumCommands_asked : (∀ cmd : Fin 0x15, let s := asking (request cmd.val []) id
      asks s (.mailbox 3) cmd.val 9 [] = true ∧ requestWhole s (.mailbox 3) = true ∧ stateRefuses s cmd.val = false) ∧
    (let s := asking (request 0x15 [1]) id; asks s (.mailbox 3) 0x15 9 [1] = true ∧ requestWhole s (.mailbox 3) = true) ∧
    (let s := asking ([3, 0, 9, 0, 9, 0, 0, 0]) id; asks s (.mailbox 3) 3 9 [] = true ∧ requestWhole s (.mailbox 3) = false) ∧
    asks (running false) (.mailbox 3) 2 9 [] = false ∧ (running false).obt.reqs = [] := by decide +kernel

/-- Hypotheses of the commands with a body: they are asked, whole and not refused. -/
theorem witness_ObtumCommands_bodies : ∀ p ∈ [(3, leBytes 4 0 ++ leBytes 2 126 ++ leBytes 2 0), (6, [1, 1, 0x20, 3, 0, 0, 0, 0]),
      (7, leBytes 2 1 ++ leBytes 2 0 ++ leBytes 4 0x110 ++ leBytes 3 0 ++ leBytes 5 5), (8, [5, 1, 0, 0]), (10, leBytes 2 1 ++ leBytes 2 0),
      (11, leBytes 2 2 ++ leBytes 2 0), (18, List.replicate 32 7), (19, leBytes 2 2026 ++ [2, 28, 23, 59, 59, 0])],
    let s := asking (request p.1 p.2) id
    asks s (.mailbox 3) p.1 9 p.2 = true ∧ requestWhole s (.mailbox 3) = true ∧ stateRefuses s p.1 = false := by decide +kernel

theorem witness_ObtumCommands_clear : (let b : List Byte := [0, 0, 0, 0, 0, 0, 0, 0] ++ List.replicate 146 7
      let s := asking (request 4 b) (fun s => { s with
        fuses := { s.fuses with word := s.fuses.word.set 40 1 }, obt := { s.obt with nonce := some (List.replicate 32 7, 0) } })
      asks s (.mailbox 3) 4 9 b = true ∧ requestWhole s (.mailbox 3) = true ∧ stateRefuses s 4 = false ∧ zeros b 1 3 = true ∧
        leAt b 0 1 = 0 ∧ nonceValid s ((b.drop 8).take 32) = true ∧ leAt b 4 4 = s.evt.seq.toNat) ∧
    (∃ s : State, s.pil.pfw = true) ∧ (∃ s : State, s.bkp.locked = true) ∧
    (∃ s : State, ∃ n : Bus, ∃ r rest, s.obt.reqs = (.bus n, r) :: rest) := by
  refine ⟨by decide +kernel, ⟨pillar (fun p => { p with pfw := true }), rfl⟩, ⟨backup (fun b => { b with locked := true }), rfl⟩, ?_⟩
  exact ⟨{ base with obt := { base.obt with reqs := [(.bus 0, [])] } }, 0, [], [], rfl⟩

/-- A request of an update command on a part with a session. -/
def updatingAsked (cmd : Nat) (body : List Byte) : State :=
  let s := updating 3 2 true
  { s with obt := { s.obt with reqs := [(.mailbox 3, request cmd body)] } }

theorem witness_ImageUpdates_asked : (∀ cmd : Fin 2, let s := updatingAsked (cmd.val + 16) (leBytes 1 1 ++ leBytes 3 0)
      asks s (.mailbox 3) (cmd.val + 16) 9 (leBytes 1 1 ++ leBytes 3 0) = true ∧ requestWhole s (.mailbox 3) = true) ∧
    (let b : List Byte := leBytes 1 2 ++ leBytes 3 0 ++ leBytes 4 67108864 ++ List.replicate 128 1
     asks (updatingAsked 14 b) (.mailbox 3) 14 9 b = true ∧ requestWhole (updatingAsked 14 b) (.mailbox 3) = true) ∧
    portOk (updating 3 2 false) false = true ∧ (running false).xsp.slotOp = none ∧ (running false).xsp.dirq = [] := by decide +kernel

set_option maxRecDepth 60000 in
/-- A half of block 1 that is expected next, and the states of the directory while it changes. -/
theorem witness_ImageUpdates_block : (let b : List Byte := [1, 1, 0, 0, 1, 0, 0, 0, 5, 0, 0, 0] ++ List.replicate 2048 3
      asks (updatingAsked 15 b) (.mailbox 3) 15 9 b = true ∧ requestWhole (updatingAsked 15 b) (.mailbox 3) = true) := by decide +kernel

theorem witness_ImageUpdates_flash : (∃ s : State, ∃ c, s.xsp.slotOp = none ∧ s.xsp.dirq = [c] ∧ s.sec.failValid = false) ∧
    (∃ s : State, ∃ o, s.xsp.slotOp = some o) ∧ (∃ s : State, s.sec.busy = true) ∧
    (∃ s : State, wantedActive s .charter ≠ s.xsp.inUse[kindIx .charter]) := by
  refine ⟨⟨{ base with xsp := { base.xsp with dirq := [⟨.charter, true, 1, false, [], false⟩] } }, _, rfl, rfl, rfl⟩,
    ⟨{ base with xsp := { base.xsp with slotOp := some ⟨.charter, true, 0⟩ } }, _, rfl⟩,
    ⟨{ base with sec := { base.sec with busy := true } }, rfl⟩,
    ⟨{ base with xsp := { base.xsp with inUse := base.xsp.inUse.map (fun b => !b) } }, by decide +kernel⟩⟩

theorem witness_TestAccess_challenge : (let s := debugging 0 false false
      s.tap.ir = 0x21 ∧ { s.sec with open_ := false }.open_ = false ∧ s.tap.checking = none) ∧
    challengeExpired { base with tap := { base.tap with nonce := some ([], 61440) } } = false ∧
    challengeExpired { base with tap := { base.tap with nonce := some ([], 61441) } } = true ∧
    (0xFE : Byte) ∉ [0x00#8, 0x01#8, 0x02#8, 0x03#8, 0x04#8, 0x20#8, 0x21#8] := by decide

theorem witness_AgeingAndMonitors_turns : base.age.canaryTurn = 0 ∧ (1 : Fin 48) ≠ base.age.canaryTurn ∧ base.age.roTurn = 0 ∧
    (1 : Island) ≠ base.age.roTurn ∧ base.hlt.layout[(0 : Point)].source ∉ [4, 5, 6, 7] ∧
    (∃ s : State, s.hlt.layout[(0 : Point)].source ∈ [4, 5, 6, 7]) := by
  refine ⟨by decide, by decide, by decide, by decide, by decide, ?_⟩
  exact ⟨{ base with hlt := { base.hlt with layout := base.hlt.layout.set 0 ⟨4, 0, false, 0, 0⟩ } }, by decide⟩

/-- A canary out of its turn is not read, and the pointer goes on after a reading (R473). -/
theorem test_canary_turn : (match exec (.canaryMeasurement 1 9) base with | .next u => some u.age.canaryTurn | _ => none) = some 0 ∧
    (match exec (.canaryMeasurement 0 9) base with | .next u => some u.age.canaryTurn | _ => none) = some 1 := by decide +kernel

theorem witness_PillarStore_faults : (recovering base).asy.recovery = true ∧ handsOver (swaps .handIn) = true ∧
    (∃ s : State, s.pil.store = .none ∧ resetUnderWay s = true) ∧ (∃ s : State, s.pil.store = .none ∧ resetUnderWay s = false) ∧
    (pillar (fun p => { p with pfw := true, store := .storing false [] })).pil.store = .storing false [] := by
  refine ⟨by decide, by decide, ⟨entered, by decide⟩, ⟨base, by decide⟩, by decide⟩

theorem witness_BackupDomain_locked : (backup (fun b => { b with locked := true, timeValid := true })).bkp.locked = true ∧
    (backup (fun b => { b with cal := ⟨399, 12, 31, 23, 59, 59, 1023⟩ })).bkp.cal = ⟨399, 12, 31, 23, 59, 59, 1023⟩ ∧
    (backup (fun b => { b with cal := ⟨100, 2, 28, 23, 59, 59, 1023⟩ })).bkp.cal = ⟨100, 2, 28, 23, 59, 59, 1023⟩ ∧
    (∃ s : State, s.bkp.timeValid = true ∧ s.bkp.locked = false ∧ s.pil.pfw = true) := by
  refine ⟨by decide, by decide, by decide, ⟨let s := backup (fun b => { b with timeValid := true }); { s with pil := { s.pil with pfw := true } }, by decide⟩⟩

theorem witness_EventRecorder_states : (let s := recording (fun e => { e with queue := [event0], ready := true })
      s.evt.ready = true ∧ s.sys.noLog = false ∧ event0.awaits = none ∧ s.pil.bad = []) ∧
    State.reset.evt.ready = false ∧ State.reset.sys.noLog = false ∧
    (let s := atWork true cyc regs
     let v := s.modTask 0 (fun t => { t with overrun := true })
     (v.task 0).phase = .opened ∧ (v.task 0).overrun = true ∧ { event0 with awaits := some (0 : Task) }.awaits = some 0) ∧
    (∃ s : State, s.evt.queue = [event0] ∧ s.pil.pfw = true ∧ s.evt.count < 24576) ∧
    (∃ s : State, s.seq.ut < (window 1).closeAt) ∧ (∃ s : State, 64 ≤ s.evt.queue.length ∧ s.evt.full = false ∧ s.evt.windows = []) := by
  refine ⟨by decide, by decide, by decide, by decide, ?_, ?_, ?_⟩
  · exact ⟨let s := recording (fun e => { e with queue := [event0] }); { s with pil := { s.pil with pfw := true } }, by decide⟩
  · exact ⟨{ base with seq := { base.seq with ut := 0 } }, by decide⟩
  · exact ⟨recording (fun e => { e with queue := List.replicate 64 event0 }), by decide⟩

/-- The key register of the watchdog at address 0x0E00, whose clock runs (R314). -/
theorem witness_HeadframeMemoryAndPorts_watchdog : (hfAt false []).wdt.stopped = false ∧ isExpert 0x0E00 = false ∧
    engineInterface 0x0E00 = false := by decide

end Sys2Proof.Tests
end

section
/-! PROOFS. CNT72: what its four modes compute in the words of R226, and that an execution writes the record and the pair and retires. -/

namespace Sys2Proof.Proofs.LaneCounters

open Sys2Proof Sys2Proof.Machine Sys2Proof.Safety Sys2Proof.Laws

/-! ### The signed 72-bit range -/

/-- An integer limited to the signed 72-bit range: sat() of R226. -/
def limit72 (i : Int) : Int := max (-2 ^ 71) (min (2 ^ 71 - 1) i)

/-- A 72-bit word holds its limited integer whole. -/
@[simp] theorem toInt_ofInt_limit72 (i : Int) : (BitVec.ofInt 72 (limit72 i)).toInt = limit72 i :=
  BitVec.toInt_ofInt_eq_self (by decide) (by simp only [limit72]; omega) (by simp only [limit72]; omega)

/-- Limiting leaves an integer that fits as it is. -/
theorem limit72_of_fits {i : Int} (h : fits 72 i = true) : limit72 i = i := by
  simp only [fits, decide_eq_true_eq] at h
  simp only [limit72]; omega

/-- The value of a double word fits. -/
theorem fits_toInt (v : W72) : fits 72 v.toInt = true :=
  decide_eq_true ⟨v.le_toInt, v.toInt_lt⟩

@[simp] theorem limit72_toInt (v : W72) : limit72 v.toInt = v.toInt := limit72_of_fits (fits_toInt v)

/-- The model's sat() answers the limited sum, and whether the sum did not fit. -/
theorem sat72_eq (i : Int) : sat72 i = (BitVec.ofInt 72 (limit72 i), !fits 72 i) := by
  unfold sat72
  split
  case isTrue low =>
    have hl : limit72 i = -2 ^ 71 := by simp only [limit72]; omega
    have hf : fits 72 i = false := decide_eq_false (by omega)
    rw [hl, hf]; decide
  case isFalse notLow =>
    split
    case isTrue high =>
      have hl : limit72 i = 2 ^ 71 - 1 := by simp only [limit72]; omega
      have hf : fits 72 i = false := decide_eq_false (by omega)
      rw [hl, hf]; decide
    case isFalse notHigh =>
      have hf : fits 72 i = true := decide_eq_true (by omega)
      rw [limit72_of_fits hf, hf]; rfl

/-- A count that stands is a sum that needs no limiting. -/
theorem sat72_toInt (v : W72) : sat72 v.toInt = (v, false) := by
  rw [sat72_eq, limit72_toInt, fits_toInt, BitVec.ofInt_toInt]; rfl

/-! ### The four modes -/

/-- What a mode answers for its sum and its RLR: the limited count, with sat_hit where the sum did not fit (R226). -/
def counted (sum : Int) (r : Bool) : CountRes := ⟨BitVec.ofInt 72 (limit72 sum), !fits 72 sum, r⟩

/-- A mode that adds under a condition limits one sum, which is the count itself where nothing is added. -/
theorem ite_sat72_eq {p : Prop} [Decidable p] {cv : W72} {i sum : Int} (hs : sum = if p then i else cv.toInt) :
    (if p then sat72 i else (cv, false)) = (BitVec.ofInt 72 (limit72 sum), !fits 72 sum) := by
  rw [← sat72_eq, hs, apply_ite sat72, sat72_toInt]

/-- The condition under which CTU and CTD count: IN = 1 and PREV = 0. -/
theorem risingEdge_iff (inp prev : Bool) : (inp && !prev) = true ↔ inp = true ∧ prev = false := by simp

/-- CTU: RLR tells CV ≥ X. -/
theorem ctuStep_eq {cv x : W72} {inp prev : Bool} {sum : Int}
    (hs : sum = if inp = true ∧ prev = false then cv.toInt + 1 else cv.toInt) :
    ctuStep cv x inp prev = counted sum (decide (x.toInt ≤ limit72 sum)) := by
  simp only [ctuStep, risingEdge_iff, ite_sat72_eq hs, counted, BitVec.sle, toInt_ofInt_limit72]

/-- CTD: RLR tells CV ≤ 0. -/
theorem ctdStep_eq {cv x : W72} {inp prev : Bool} {sum : Int}
    (hs : sum = if inp = true ∧ prev = false then cv.toInt - 1 else cv.toInt) :
    ctdStep cv x inp prev = counted sum (decide (limit72 sum ≤ 0)) := by
  simp only [ctdStep, risingEdge_iff, ite_sat72_eq hs, counted, BitVec.sle, toInt_ofInt_limit72,
    show (0 : W72).toInt = 0 from rfl]

/-- ACC: RLR tells sat_hit. -/
theorem accStep_eq {cv x : W72} {inp prev : Bool} {sum : Int} (hs : sum = if inp then cv.toInt + x.toInt else cv.toInt) :
    accStep cv x inp prev = counted sum (!fits 72 sum) := by
  simp only [accStep, ite_sat72_eq hs, counted]

/-- LOAD takes a value that fits, so that sat_hit is 0. -/
theorem loadStep_eq {cv x : W72} {inp prev : Bool} {sum : Int} (hs : sum = if inp then x.toInt else cv.toInt) :
    loadStep cv x inp prev = counted sum false := by
  rw [hs, ← apply_ite BitVec.toInt]
  simp [loadStep, counted, fits_toInt]

/-! ### One execution -/

/-- A pair written in the words of R210. -/
theorem putPair_eq_wrPair (y : Ctx) (xp : Reg) (v : W72) : y.putPair xp v = wrPair xp v y := by
  simp only [Ctx.putPair, wrPair, BitVec.setWidth_eq_extractLsb' (by decide : 36 ≤ 72)]

/-- N and Z from a result: C and V stay. -/
theorem nz_eq_withNZ {w : Nat} (y : Ctx) (v : BitVec w) : y.nz v = withNZ v y := rfl

/-- An even register names a pair. -/
theorem oddPair_eq_false {xp : Reg} (h : xp.val % 2 = 0) : oddPair xp = false := by simp [oddPair, h]

/-- Word +2 of the record written back: PREV alone. -/
theorem ofNat_bit (b : Bool) : BitVec.ofNat 36 (bit b) = if b then 1 else 0 := by cases b <;> rfl

/-- CNT72 on a record that passes its checks writes the count and PREV := IN, puts CV into pair XP and retires (R226, R227). -/
theorem countStep_ok {s s0 s1 s2 : State} {l : LaneId} {c : Cond} {t : Task} {k : LCycle} {seg : Sel} {xp : Reg} {word : BitVec 17}
    {a : Nat} {d : SegRec} {w0 w1 w2 : W36} {f : W72 → W72 → Bool → Bool → CountRes} {sum : Int} {r : Bool} {cv : W72}
    (h : Runs s l c t k) (he : xp.val % 2 = 0) (hc : checkRecord s l seg word.toNat = .ok (a, d))
    (hr : readWords s l t d a 3 = .ok ([w0, w1, w2], s0)) (hp : peekWord s0 l t k d (a + 3) = .ok (0, s1)) (h2 : w2.toNat < 2)
    (hcv : cv = BitVec.ofInt 72 (limit72 sum))
    (hw : writeWords s1 l t d a [cv.extractLsb' 0 36, cv.extractLsb' 36 36, if (s1.ctx l).rlr then 1 else 0] = .ok ((), s2))
    (hf : f (w1 ++ w0) (pair (s1.ctx l) xp) (s1.ctx l).rlr (w2.getLsbD 0) = counted sum r) :
    countStep f l c seg xp word s = retire l t .seq (s2.modCtx l (fun y =>
      { withNZ cv (wrPair xp cv y) with v := !fits 72 sum, rlr := r })) := by
  obtain ⟨hready, hcond, hside⟩ := h
  refine laneStep_ok hready (oddPair_eq_false he) (unmarked_plain _ _ _ _) hcond hside rfl ?_
  have hf' : f (w1 ++ w0) ((s1.ctx l).getPair xp) (s1.ctx l).rlr (w2.getLsbD 0) = ⟨cv, !fits 72 sum, r⟩ := hcv ▸ hf
  have hw' : writeWords s1 l t d a [cv.setWidth 36, cv.extractLsb' 36 36, BitVec.ofNat 36 (bit (s1.ctx l).rlr)] = .ok ((), s2) := by
    rw [BitVec.setWidth_eq_extractLsb' (by decide), ofNat_bit]; exact hw
  have hrec : ¬(2 ≤ w2.toNat ∨ (0 : W36) ≠ 0) := by simpa using h2
  simp only [hc, hr, hp, List.getD_cons_zero, List.getD_cons_succ, if_neg hrec, hf', hw', putPair_eq_wrPair, nz_eq_withNZ]

/-! ### The four instructions are CNT72 in their modes -/

variable (s : State) (l : LaneId) (c : Cond) (seg : Sel) (xp : Reg) (word : BitVec 17)

/-- CTU is CNT72 with MODE 0. -/
theorem exec_ctu : exec (.ctu l c seg xp word) s = .next (countStep ctuStep l c seg xp word s) := rfl
/-- CTD is CNT72 with MODE 1. -/
theorem exec_ctd : exec (.ctd l c seg xp word) s = .next (countStep ctdStep l c seg xp word s) := rfl
/-- ACC is CNT72 with MODE 2. -/
theorem exec_acc : exec (.acc l c seg xp word) s = .next (countStep accStep l c seg xp word s) := rfl
/-- LOAD is CNT72 with MODE 3. -/
theorem exec_load : exec (.load l c seg xp word) s = .next (countStep loadStep l c seg xp word s) := rfl

end Sys2Proof.Proofs.LaneCounters

/-! ### The obligation -/

open Sys2Proof Sys2Proof.Machine Sys2Proof.Safety Sys2Proof.Proofs.LaneCounters

/-- Settles O15: each mode of CNT72 answers its sum limited to 72 bits, and one execution writes that answer. -/
theorem laneCounters : Obligations.LaneCounters := by
  unfold Obligations.LaneCounters
  intro s s0 s1 s2 l c t k h seg xp word a d w0 w1 w2 sum r he hc hr hp h2 x old op limit cv edge hw done
  have executes (f : W72 → W72 → Bool → Bool → CountRes) (hf : f old op x.rlr (w2.getLsbD 0) = counted sum r) :
      .next (countStep f l c seg xp word s) = done :=
    congrArg Host.Outcome.next (countStep_ok h he hc hr hp h2 rfl hw hf)
  rw [exec_ctu, exec_ctd, exec_acc, exec_load]
  refine ⟨fun hs hq => executes ctuStep ?_, fun hs hq => executes ctdStep ?_, fun hs hq => executes accStep ?_,
    fun hs hq => executes loadStep ?_⟩
  · exact hq ▸ ctuStep_eq hs
  · exact hq ▸ ctdStep_eq hs
  · exact hq ▸ accStep_eq hs
  · exact hq ▸ loadStep_eq hs
end

section
/-! PROOFS. The system watchdog (R311, R313, R315-R317): what a reset entry leaves, what a trip does, and how a key that lands is judged. -/

namespace Sys2Proof.Proofs.Watchdog

open Sys2Proof Sys2Proof.Machine Sys2Proof.Laws

variable (s : State)

/-! ### The reset entry (R90) -/

section

variable (cause : Nat)

@[simp] theorem resetSource_wdt : (resetSource s cause).wdt = s.wdt := by
  unfold resetSource resetEntry
  split <;> rfl

@[simp] theorem resetSource_pair : (resetSource s cause).pair = s.pair := by
  unfold resetSource resetEntry
  split <;> rfl

@[simp] theorem resetSource_tripPending : (resetSource s cause).sys.tripPending = s.sys.tripPending := by
  unfold resetSource resetEntry
  split <;> rfl

/-- The part has entered a reset of this cause, with its class (R87), and both lanes are stopped. -/
structure ResetEntered (u : State) : Prop where
  cause_eq : u.sys.cause = cause
  phase : u.sys.phase = .entered
  coldClass : u.sys.coldClass = coldCause cause
  laneA : u.laneA.stopped = true
  laneB : u.laneB.stopped = true

/-- With no reset under way, a reset source enters one. -/
theorem resetEntered_resetSource (h : resetUnderWay s = false) : ResetEntered cause (resetSource s cause) := by
  unfold resetSource resetEntry
  rw [h]
  constructor <;> rfl

end

/-! ### A trip (R315) -/

section

variable (trip : Nat)

/-- The unit fault of a trip, before the reset it brings: TRIP and the event that is still to be posted stand. -/
def tripFault : State :=
  let s1 := unitFault (s.modWdt (fun w => { w with trip := trip })) 13 0xFF (0x200 + trip)
  { s1 with sys := { s1.sys with tripPending := true } }

@[simp] theorem tripFault_wdt : (tripFault s trip).wdt = { s.wdt with trip := trip } := unitFault_wdt _ 13 0xFF (0x200 + trip)

@[simp] theorem tripFault_role : (tripFault s trip).pair.role = .faulted := unitFault_role _ 13 0xFF (0x200 + trip)

/-- The unit fault itself enters no reset. -/
@[simp] theorem tripFault_resetUnderWay : resetUnderWay (tripFault s trip) = resetUnderWay s := by
  simp [resetUnderWay, tripFault]

/-- A trip is its unit fault and a reset of cause 4, but for the order of the events posted in that clock. -/
theorem wdtTrip_shape : ∃ q, wdtTrip s trip =
    let u := resetSource (tripFault s trip) 4
    { u with evt := { u.evt with queue := q } } := inOneClock_shape s _

/-- A trip writes TRIP and leaves the rest of the watchdog's state as it was. -/
@[simp] theorem wdtTrip_wdt : (wdtTrip s trip).wdt = { s.wdt with trip := trip } := by
  obtain ⟨q, h⟩ := wdtTrip_shape s trip
  simp [h]

@[simp] theorem wdtTrip_role : (wdtTrip s trip).pair.role = .faulted := by
  obtain ⟨q, h⟩ := wdtTrip_shape s trip
  simp [h]

@[simp] theorem wdtTrip_tripPending : (wdtTrip s trip).sys.tripPending = true := by
  obtain ⟨q, h⟩ := wdtTrip_shape s trip
  simp [h, tripFault]

/-- With no reset under way, a trip enters one of cause 4. -/
theorem resetEntered_wdtTrip (h : resetUnderWay s = false) : ResetEntered 4 (wdtTrip s trip) := by
  obtain ⟨q, hq⟩ := wdtTrip_shape s trip
  have hf : resetUnderWay (tripFault s trip) = false := (tripFault_resetUnderWay s trip).trans h
  obtain ⟨hcause, hphase, hcold, ha, hb⟩ := resetEntered_resetSource _ 4 hf
  rw [hq]
  exact ⟨hcause, hphase, hcold, ha, hb⟩

/-- An outcome of a command in `s` that is a trip: a unit fault, and a reset of cause 4 unless one is under way. -/
def Trips (out : Out) : Prop :=
  ∃ u, out = .next u ∧ u.wdt.trip = trip ∧ u.pair.role = .faulted ∧ u.sys.tripPending = true ∧
    (resetUnderWay s = false → u.sys.cause = 4 ∧ u.sys.phase = .entered ∧ u.sys.coldClass = false ∧
      u.laneA.stopped = true ∧ u.laneB.stopped = true)

variable {s trip} {out : Out} {f : WdtState → WdtState}

/-- A trip before which only the watchdog's own state had moved is a trip of the state before. -/
theorem trips_of_eq_wdtTrip (h : out = .next (wdtTrip (s.modWdt f) trip)) : Trips s trip out := by
  refine ⟨_, h, by simp, wdtTrip_role _ _, wdtTrip_tripPending _ _, fun hr => ?_⟩
  obtain ⟨hcause, hphase, hcold, ha, hb⟩ := resetEntered_wdtTrip (s.modWdt f) trip hr
  exact ⟨hcause, hphase, hcold, ha, hb⟩

/-- A trip keeps the judgement that stands in LAST. -/
theorem last_of_eq_wdtTrip (h : out = .next (wdtTrip (s.modWdt f) trip)) {u : State} (hu : out = .next u) :
    u.wdt.last = (f s.wdt).last := by
  obtain rfl : wdtTrip (s.modWdt f) trip = u := Host.Outcome.next.inj (h.symm.trans hu)
  simp

end

/-! ### A key that lands (R313) -/

section

variable {s} {key : W16}

/-- A key that lands while the watchdog is not armed is only noted. -/
theorem wdtLand_disarmed (hs : s.wdt.stopped = false) (ha : s.wdt.armed = false) :
    wdtLand s key = s.modWdt (fun w => { w with last := 4 }) := by
  simp [wdtLand, hs, ha]

variable (hs : s.wdt.stopped = false) (ha : s.wdt.armed = true)

include hs ha

/-- A key in the open window restarts the count and counts as a service. -/
theorem wdtLand_open (ho : wdtOpens s ≤ s.wdt.count) : wdtLand s 0xC3A5 =
    s.modWdt (fun w => { w with last := 1, land := w.count, count := 0, served := sat16 w.served 1 }) := by
  have hn : ¬ s.wdt.count < wdtOpens s := Nat.not_lt.mpr ho
  simp [wdtLand, hs, ha, hn, State.modWdt]

/-- A key before the window opens is early: trip 1. -/
theorem wdtLand_early (ho : s.wdt.count < wdtOpens s) :
    wdtLand s 0xC3A5 = wdtTrip (s.modWdt (fun w => { w with last := 2, land := w.count })) 1 := by
  simp [wdtLand, hs, ha, ho, State.modWdt]

/-- A wrong key trips wherever it lands: trip 2. -/
theorem wdtLand_wrong (hk : key ≠ 0xC3A5) :
    wdtLand s key = wdtTrip (s.modWdt (fun w => { w with last := 3, land := w.count })) 2 := by
  simp only [wdtLand, hs, ha, Bool.not_true, Bool.false_eq_true, if_false, if_pos hk]
  rfl

end

/-! ### The commands (R313, R316, R317) -/

section

/-- The count `e` ticks on: it stops short of the tick that would end the period. -/
def countAfter (e : Nat) : Nat := min (wdtPeriod s - 1) (s.wdt.count + e)

/-- The state in which a key that lands `e` ticks on is judged. -/
def counted (e : Nat) : State := s.modWdt (fun w => { w with count := countAfter s e })

variable {s} {e : Nat} {key : W16}

/-- The end of the period passes a watchdog by that is not armed. -/
theorem exec_watchdogExpiry_disarmed (ha : s.wdt.armed = false) : exec .watchdogExpiry s = .next s := by
  change execWatchdogExpiry s = _
  simp [execWatchdogExpiry, ha]

/-- Without a lead there is no pre-warning (R317). -/
theorem exec_watchdogPrewarning_off (hm : s.wdt.preMs = 0) : exec .watchdogPrewarning s = .next s := by
  change execWatchdogPrewarning s = _
  simp [execWatchdogPrewarning, hm]

/-- A disarmed watchdog does not count, and only notes its keys. -/
theorem exec_wdtKeyLand_disarmed (hs : s.wdt.stopped = false) (ha : s.wdt.armed = false) :
    exec (.wdtKeyLand key e) s = .next (s.modWdt (fun w => { w with last := 4 })) := by
  have hc : wdtCount s e = s := by simp [wdtCount, ha]
  change execWdtKeyLand key e s = _
  rw [execWdtKeyLand, hc, wdtLand_disarmed hs ha]

variable (ha : s.wdt.armed = true)

include ha

/-- The counting clock falls silent: trip 4. -/
theorem exec_watchdogClockStop_counting :
    exec (.watchdogClockStop .counting) s = .next (wdtTrip (s.modWdt (fun w => { w with stopped := true })) 4) := by
  change execWatchdogClockStop .counting s = _
  simp [execWatchdogClockStop, ha]

/-- The watching clock falls silent: trip 5. -/
theorem exec_watchdogClockStop_watching : exec (.watchdogClockStop .watching) s = .next (wdtTrip s 5) := by
  change execWatchdogClockStop .watching s = _
  simp [execWatchdogClockStop, ha]

variable (hs : s.wdt.stopped = false)

include hs

/-- With a lead set, the pre-warning rises at its count (R317). -/
theorem exec_watchdogPrewarning_armed (hm : s.wdt.preMs ≠ 0) : exec .watchdogPrewarning s =
    .next (notifySeam (s.modWdt (fun w => { w with prewarn := true, count := max w.count (prewarnCount s) })) 0) := by
  change execWatchdogPrewarning s = _
  simp [execWatchdogPrewarning, hs, ha, hm]

/-- The end of the period: trip 3. -/
theorem exec_watchdogExpiry_armed :
    exec .watchdogExpiry s = .next (wdtTrip (s.modWdt (fun w => { w with count := wdtPeriod s - 1 })) 3) := by
  change execWatchdogExpiry s = _
  simp [execWatchdogExpiry, hs, ha]

/-- The count moves on before the key is judged. -/
theorem exec_wdtKeyLand_armed : exec (.wdtKeyLand key e) s = .next (wdtLand (counted s e) key) := by
  have hc : wdtCount s e = counted s e := by simp [wdtCount, hs, ha, State.modWdt, counted, countAfter]
  change execWdtKeyLand key e s = _
  rw [execWdtKeyLand, hc]

/-- A key in the open window is a service. -/
theorem exec_wdtKeyLand_open (ho : wdtOpens s ≤ countAfter s e) : exec (.wdtKeyLand 0xC3A5 e) s =
    .next (s.modWdt (fun w => { w with last := 1, land := countAfter s e, count := 0, served := sat16 w.served 1 })) :=
  (exec_wdtKeyLand_armed ha hs).trans (congrArg Host.Outcome.next (wdtLand_open (s := counted s e) hs ha ho))

/-- A right key too soon trips, with LAST 2. -/
theorem exec_wdtKeyLand_early (ho : countAfter s e < wdtOpens s) : exec (.wdtKeyLand 0xC3A5 e) s =
    .next (wdtTrip (s.modWdt (fun w => { w with last := 2, land := countAfter s e, count := countAfter s e })) 1) :=
  (exec_wdtKeyLand_armed ha hs).trans (congrArg Host.Outcome.next (wdtLand_early (s := counted s e) hs ha ho))

/-- A wrong key trips, with LAST 3. -/
theorem exec_wdtKeyLand_wrong (hk : key ≠ 0xC3A5) : exec (.wdtKeyLand key e) s =
    .next (wdtTrip (s.modWdt (fun w => { w with last := 3, land := countAfter s e, count := countAfter s e })) 2) :=
  (exec_wdtKeyLand_armed ha hs).trans (congrArg Host.Outcome.next (wdtLand_wrong (s := counted s e) hs ha hk))

end

end Sys2Proof.Proofs.Watchdog

/-! ### The obligation -/

open Sys2Proof Sys2Proof.Machine Sys2Proof.Proofs.Watchdog

/-- Settles O46: a key is judged by the count it lands on, and each trip is a unit fault and a reset of cause 4. -/
theorem watchdog : Obligations.Watchdog := by
  unfold Obligations.Watchdog
  intro s ha hs n trips
  refine ⟨fun e ho => exec_wdtKeyLand_open ha hs ho, fun e ho => ?early, fun e key hk => ?wrong, ?expiry, ?counting, ?watching,
    exec_watchdogPrewarning_armed ha hs, exec_watchdogPrewarning_off, fun key e => exec_wdtKeyLand_disarmed hs rfl,
    exec_watchdogExpiry_disarmed rfl⟩
  case early =>
    have h := exec_wdtKeyLand_early ha hs ho
    exact ⟨trips_of_eq_wdtTrip h, fun u hu => last_of_eq_wdtTrip h hu⟩
  case wrong =>
    have h := exec_wdtKeyLand_wrong (e := e) ha hs hk
    exact ⟨trips_of_eq_wdtTrip h, fun u hu => last_of_eq_wdtTrip h hu⟩
  case expiry => exact trips_of_eq_wdtTrip (exec_watchdogExpiry_armed ha hs)
  case counting => exact trips_of_eq_wdtTrip (exec_watchdogClockStop_counting ha)
  case watching => exact trips_of_eq_wdtTrip (f := id) (exec_watchdogClockStop_watching ha)
end

section
/-! PROOFS. The pulse seams (R460, R467, R468): what round trips that return leave of a seam, and what an event that arrives then does. -/

namespace Sys2Proof.Proofs.PulseSeams

open Sys2Proof Sys2Proof.Machine

variable {q : PSeam} {n : Nat}

/-! ### Round trips that return -/

/-- An idle seam has no round trip that could return. -/
theorem returnTrip_idle (hb : q.busy = false) : q.returnTrip = q := by simp [PSeam.returnTrip, hb]

/-- With nothing pending, the seam goes idle. -/
theorem returnTrip_busy (hb : q.busy = true) (hp : q.pend = false) : q.returnTrip = { q with busy := false } := by
  simp [PSeam.returnTrip, hb, hp]

/-- A pending event takes the next round trip, so that the seam stays busy. -/
theorem returnTrip_pending (hb : q.busy = true) (hp : q.pend = true) : q.returnTrip = { q with pend := false } := by
  simp [PSeam.returnTrip, hb, hp]

theorem returns_idle (hb : q.busy = false) : ∀ n, q.returns n = q
  | 0 => rfl
  | n + 1 => by rw [PSeam.returns, returnTrip_idle hb, returns_idle hb n]

theorem returns_busy (hb : q.busy = true) (hp : q.pend = false) (hn : 0 < n) : q.returns n = { q with busy := false } := by
  obtain ⟨m, rfl⟩ := Nat.exists_eq_add_of_lt hn
  rw [Nat.zero_add, PSeam.returns, returnTrip_busy hb hp, returns_idle rfl]

theorem returns_pending_one (hb : q.busy = true) (hp : q.pend = true) : q.returns 1 = { q with pend := false } :=
  returnTrip_pending hb hp

theorem returns_pending (hb : q.busy = true) (hp : q.pend = true) (hn : 1 < n) :
    q.returns n = { q with busy := false, pend := false } := by
  obtain ⟨m, rfl⟩ := Nat.exists_eq_add_of_lt hn
  rw [PSeam.returns, returnTrip_pending hb hp]
  exact returns_busy (q := { q with pend := false }) hb rfl (by omega)

/-- A seam holds two events at most, the one under way and the pending one: further returns change nothing. -/
theorem returns_min_two (q : PSeam) (n : Nat) : q.returns (min n 2) = q.returns n := by
  rcases Nat.lt_or_ge n 2 with hn | hn
  · rw [Nat.min_eq_left (Nat.le_of_lt hn)]
  · rw [Nat.min_eq_right hn]
    cases hb : q.busy with
    | false => rw [returns_idle hb, returns_idle hb]
    | true =>
      cases hp : q.pend with
      | false => rw [returns_busy hb hp (by decide), returns_busy hb hp (by omega)]
      | true => rw [returns_pending hb hp (by decide), returns_pending hb hp hn]

/-- One return frees the seam or its pending bit: an event overruns only where none has returned. -/
theorem overrun_returns (q : PSeam) (n : Nat) :
    ((q.returns n).busy && (q.returns n).pend) = (n == 0 && q.busy && q.pend) := by
  rcases Nat.eq_zero_or_pos n with rfl | hn
  · simp [PSeam.returns]
  · have h0 : (n == 0) = false := beq_eq_false_iff_ne.mpr (Nat.ne_of_gt hn)
    rw [h0, Bool.false_and, Bool.false_and]
    cases hb : q.busy with
    | false => rw [returns_idle hb, hb, Bool.false_and]
    | true =>
      cases hp : q.pend with
      | false => rw [returns_busy hb hp hn, Bool.false_and]
      | true =>
        rcases Nat.eq_or_lt_of_le hn with rfl | h1
        · rw [returns_pending_one hb hp, Bool.and_false]
        · rw [returns_pending hb hp h1, Bool.false_and]

/-! ### The event that arrives (R467) -/

/-- An event finds the seam idle: a round trip starts. -/
theorem pulse_idle (hb : q.busy = false) : q.pulse = { q with busy := true } := by simp [PSeam.pulse, hb]

/-- An event finds a round trip under way: it waits. -/
theorem pulse_busy (hb : q.busy = true) (hp : q.pend = false) : q.pulse = { q with pend := true } := by
  simp [PSeam.pulse, hb, hp]

/-- An event finds another one waiting: it is lost. -/
theorem pulse_pending (hb : q.busy = true) (hp : q.pend = true) :
    q.pulse = { q with ovr := true, lost := min 255 (q.lost + 1) } := by simp [PSeam.pulse, hb, hp]

/-- The seam after an event that arrives once `n` round trips have returned. -/
def arrived (n : Nat) (q : PSeam) : PSeam := (q.returns n).pulse

theorem arrived_idle (hb : q.busy = false) : arrived n q = { q with busy := true } := by
  rw [arrived, returns_idle hb, pulse_idle hb]

theorem arrived_busy_returned (hb : q.busy = true) (hp : q.pend = false) (hn : 0 < n) :
    arrived n q = { q with busy := true } := by
  rw [arrived, returns_busy hb hp hn, pulse_idle rfl]

theorem arrived_pending_one (hb : q.busy = true) (hp : q.pend = true) : arrived 1 q = { q with pend := true } := by
  rw [arrived, returns_pending_one hb hp]
  exact pulse_busy (q := { q with pend := false }) hb rfl

theorem arrived_pending_returned (hb : q.busy = true) (hp : q.pend = true) (hn : 1 < n) :
    arrived n q = { q with busy := true, pend := false } := by
  rw [arrived, returns_pending hb hp hn, pulse_idle rfl]

/-! ### The command (R460, R467, R468) -/

variable {s : State} {i : Fin 16}

/-- The state in which seam `i` stands as `x`, an overrun is noted where there was one, and the gate of HEADFRAME is open. -/
def entered (s : State) (i : Fin 16) (overrun : Bool) (x : PSeam) : State :=
  { s with clk := { s.clk with gate := s.clk.gate.set 5 .open_ }
           seam := { s.seam with pulse := s.seam.pulse.set i x, ovr := s.seam.ovr || overrun } }

/-- An event whose fact stands arrives at its seam, and changes nothing else but SEAM.STAT.OVR and the gate. -/
theorem exec_pulseSeamEvent_fact (hf : seamFact s i = true) (hq : s.seam.pulse[i] = q) :
    exec (.pulseSeamEvent i n) s = .next (entered s i (n == 0 && q.busy && q.pend) (arrived n q)) := by
  change execPulseSeamEvent i n s = _
  simp only [execPulseSeamEvent, hf, if_true, enterSeam, returns_min_two, overrun_returns, hq]
  rfl

end Sys2Proof.Proofs.PulseSeams

/-! ### The obligation -/

open Sys2Proof Sys2Proof.Machine Sys2Proof.Proofs.PulseSeams

/-- Settles O35: an event does to its seam what the table of R467 gives, by what the round trips that have returned left of the seam. -/
theorem pulseSeams : Obligations.PulseSeams := by
  unfold Obligations.PulseSeams
  intro s i n q hq hf after
  have arrives {x : PSeam} (hx : arrived n q = x) : after x := hx ▸ exec_pulseSeamEvent_fact hf hq
  refine ⟨fun hb => arrives (arrived_idle hb),
    fun hb hp => ⟨?waits, fun hn => arrives (arrived_busy_returned hb hp hn)⟩,
    fun hb hp => ⟨?lost, ?waitsAgain, fun hn => arrives (arrived_pending_returned hb hp hn)⟩⟩
  case waits =>
    rintro rfl
    exact arrives (pulse_busy hb hp)
  case lost =>
    rintro rfl
    exact arrives (pulse_pending hb hp)
  case waitsAgain =>
    rintro rfl
    exact arrives (arrived_pending_one hb hp)
end
